-- ==== Sys2Proof/Word.lean ====
section
/-! DEFINITION. The words of the controller: the 32-bit register word and the byte of host memory
(00_scope.md sections 2.1 and 4.1). -/

namespace Sys2Proof

/-- One byte of host memory or of a camera link. -/
abbrev Byte := BitVec 8

/-- One register of the window: every register is accessed as a whole 32-bit word (R174). -/
abbrev Word32 := BitVec 32

end Sys2Proof
end

