-- ==== Sys2Proof/Syntax.lean ====
section
/-! DEFINITION. The commands: one constructor of `Instr` for each row of spec/opcode_table.json, in
the table's order, with the operands that come from outside the controller. A read completion carries
the bytes read, since the host may write its memory at any moment (R12, R26, R164); bytes beyond the
list given count as 0 (log 3). A row that takes a message of another block, or a dispatched order,
has no operand for it: the message stands in State (log 9). -/

namespace Sys2Proof

/-- LEFT and RIGHT: the two camera channels and the two pages of an opening (section 4.2). -/
inductive Chan where
  | left
  | right
deriving DecidableEq, Repr

/-- Readings of the leaf-count sensor (Table 5-1, R85). -/
inductive LeafReading where
  | none
  | one
  | two
  | many
deriving DecidableEq, Repr

/-- The eight registers of the window (Table 11-14). ACK is the write side of ANSWERED. -/
inductive Reg where
  | control
  | status
  | base
  | post
  | answered
  | note
  | noteMask
  | grant
deriving DecidableEq, Repr

/-- The commands, one for each row of the opcode table. -/
inductive Instr where
  /-- Power is applied; the operands are the levels of the park, up and down switches (R77, R161). -/
  | powerOnReset (park up down : Bool)
  /-- A CONTROL write with RESET 1; the ENABLE bit of the same write is discarded (R171). -/
  | controlReset (enable : Bool)
  /-- A CONTROL write with RESET 0 (R163). -/
  | controlEnable (v : Word32)
  | post (v : Word32)
  /-- The 128 bytes read of the slot being taken (R164). -/
  | slotReadComplete (bytes : List Byte)
  | answerWriteComplete (slot : Fin 16)
  | ack (v : Word32)
  | noteClear (v : Word32)
  | noteMaskWrite (v : Word32)
  | baseWrite (v : Word32)
  | grant (v : Word32)
  /-- The part of a register write that falls on STATUS or on bits a register does not name (R174). -/
  | registerWriteIgnored (reg : Reg) (v : Word32)
  | loadTables
  /-- The 2,048 bytes from offset 0800h: class table, cradle settings, profiles (Table 11-1). -/
  | tableImagesRead (image : List Byte)
  | sidebandSlotsClear (c : Chan)
  | openVolume
  /-- The 256 bytes of the sheet header (Table 11-8). -/
  | sheetHeaderRead (header : List Byte)
  /-- The N plan entries of 16 bytes each, and the close record that R30 examines on resume. -/
  | planRead (entries closeRecord : List Byte)
  /-- The ledger header and the N ledger entries of 192 bytes each (R30). -/
  | ledgerReadComplete (header entries : List Byte)
  | openingWritesComplete
  | amend
  | amendWritesComplete
  | handDone
  | handDoneWritesComplete
  | closeVolume
  | closingWriteComplete
  | advance
  | capture
  | turn
  | retake
  | stop
  | reservationAnswer (c : Chan)
  | grantReport (c : Chan)
  | roomWatchExpiry
  | admissionAnswer
  | armedAnswer (c : Chan)
  | fireAnswer
  | platenCompletion
  | turnCompletion
  | lampFaultReport
  | cameraFaultReport (c : Chan)
  | judgementTaken (c : Chan)
  | admissionRequest
  | chargeWritesComplete
  | abandonRequest
  | fireRequest
  | strobeEnd
  | cancelRequest
  | abortRequest
  | interlockFall
  | openStringSense (bank : Fin 4)
  | turnRequest
  | platenRequest
  | tsqStop
  | upSwitchCloses
  | upSwitchOpens
  | downSwitchCloses
  | downSwitchOpens
  /-- A reading of the platen pressure sensor, 0 to 1,023 counts (Table 5-1). -/
  | pressureReading (counts : Fin 1024)
  | edgeReached
  | burstEnd
  | vacuumSwitchCloses
  | vacuumSwitchOpens
  /-- The leaf-count sensor as sampled at the end of READ (R85). -/
  | readSettled (reading : LeafReading)
  | sweepEnd
  | parkSwitchCloses
  | parkSwitchOpens
  | retryWindowExpiry
  | stageWatchExpiry
  | cutDelayExpiry
  | park
  | armRestore
  | reservationRequest (c : Chan)
  | unusableWriteComplete (c : Chan)
  | releaseRequest (c : Chan)
  | descriptorFilled (c : Chan)
  | armRequest (c : Chan)
  | endOfExposureNotice (c : Chan)
  /-- A FRAME start mark and header: take id and body length (Table of section 11.6). -/
  | frameHeader (c : Chan) (takeId : BitVec 16) (length : Word32)
  | bodyByte (c : Chan) (b : Byte)
  | frameTrailer (c : Chan) (check : Word32)
  | startMark (c : Chan)
  | resultWriteComplete (c : Chan)
  | frameWatchExpiry (c : Chan)
  /-- A complete SIDEBAND message: its payload is 0 to 24 bytes (R153). -/
  | sideband (c : Chan) (type : Byte) (payload : List Byte) (check : Byte)
  /-- A SIDEBAND whose length byte is above 24 (R153). -/
  | sidebandMalformed (c : Chan) (type length : Byte)
  | strayBytes (c : Chan) (bytes : List Byte)
  | readSideband
  | sidebandCopy (c : Chan)
  | sidebandReportWritten (c : Chan)
  /-- The 64 bytes of the candidate descriptor, read once (R145, Table 11-12). -/
  | descriptorReadComplete (c : Chan) (bytes : List Byte)
  | cancelAnswer
deriving DecidableEq, Repr

end Sys2Proof
end

