-- ==== Sys2Proof/Machine/State.lean ====
section
/-! DEFINITION. The state of the Galwex 240, block by block, as plain data, and its value after
power-on reset. Each structure's docstring names the rule that lists its items; items that the spec
only implies (messages between blocks, work between two events) are named as such. -/

namespace Sys2Proof.Machine

/-- Why a step stops with a fault. NO constructor: every row of the table has an effect in every
state (INVENTORY.md, Faults), so nothing can raise one. -/
inductive Fault where
deriving DecidableEq, Repr

/-- Why a command is refused. -/
inductive Refusal where
  /-- Raised by an arm of `exec` whose command has no meaning yet; safe (the machine stops). No arm
  raises it. -/
  | notModelled (mnemonic : String)
deriving DecidableEq, Repr

/-! ### Pairs and channels -/

/-- One value for each of LEFT and RIGHT. -/
structure Pair (α : Type) where
  left : α
  right : α
deriving DecidableEq, Repr

/-- A set of channels or of captured sides. -/
abbrev ChanSet := Pair Bool

/-! ### The exchange port -/

/-- Who holds an order slot and what it is doing (R161). -/
inductive SlotState where
  | free
  | pending
  | taken
  | answered
deriving DecidableEq, Repr

/-- Last reset cause (R161). -/
inductive ResetCause where
  | powerOn
  | controller
deriving DecidableEq, Repr

/-- The sides of a leaf (Table 11-13). -/
inductive Side where
  | verso
  | recto
deriving DecidableEq, Repr

/-- The thirteen orders with their parameters as read (Table 11-3). -/
inductive Order where
  | loadTables
  | openVolume
  | amend (entry kind : Nat)
  | handDone (reason cursor : Nat)
  | closeVolume (force : Bool)
  | advance (n : Nat)
  | capture
  | turn
  | retake (entry : Nat) (side : Side) (panel : Nat)
  | stop
  | park (release : Bool)
  | armRestore
  | readSideband
deriving DecidableEq, Repr

/-- An order on its way from EXP to its owner, with the slot its answer goes to (R164). -/
structure Dispatched where
  slot : Fin 16
  order : Order
deriving DecidableEq, Repr

/-- The exchange port (R161). POST, ANSWERED and INT are read from these fields. -/
structure Exp where
  slots : Vector SlotState 16
  queue : List (Fin 16)
  take : Option (Fin 16)
  note : BitVec 7
  noteMask : BitVec 7
  enable : Bool
  base : Word32
  baseRefused : Bool
  lastMispost : Fin 16
  cause : ResetCause
  /-- orders dispatched and not yet taken by their owners, in the order of dispatch (R163) -/
  orders : List Dispatched
deriving DecidableEq, Repr

/-! ### The profile store -/

/-- A class entry (R2). -/
structure ClassEntry where
  valid : Bool
  base : Nat
  limit : Nat
  profile : Nat
deriving DecidableEq, Repr

/-- The per-kind parameters of a profile (R4). -/
structure KindParams where
  cap : Nat
  levels : List Nat
  strobe : Nat
  knife : Nat
deriving DecidableEq, Repr

/-- Dose mode (R5); `unset` is the zero field of an EMPTY store (R1). -/
inductive DoseMode where
  | unset
  | withhold
  | halt
deriving DecidableEq, Repr

/-- Stall action (R6); `unset` is the zero field of an EMPTY store (R1). -/
inductive StallAction where
  | unset
  | hold
  | retract
  | retractCut
  | cut
deriving DecidableEq, Repr

/-- A profile (R4 to R7). `gate` is the code of Table 11-13: 0 NONE, g + 1 for slot g. -/
structure Profile where
  board : KindParams
  text : KindParams
  plate : KindParams
  tissue : KindParams
  foldout : KindParams
  budget : Nat
  tMin : Nat
  reserve : Nat
  doseMode : DoseMode
  attemptLimit : Nat
  retryClass : Nat
  platenClass : Nat
  armClass : Nat
  liftClass : Nat
  frameClass : Nat
  roomClass : Nat
  stallAction : StallAction
  cutCode : Nat
  pressureLimit : Nat
  autoLimit : Nat
  wait : Bool
  gate : Nat
  minFocus : Nat
deriving DecidableEq, Repr

/-- The side-band configuration of one channel (R9): four types and four store-on-error flags. -/
structure SlotConfig where
  types : List Nat
  storeOnError : List Bool
deriving DecidableEq, Repr

/-- The cradle settings (R8, R9). -/
structure Cradle where
  calibration : List Nat
  spill : Nat
  defaultEnable : Bool
  defaultProfile : Nat
  slotConfig : Pair SlotConfig
deriving DecidableEq, Repr

/-- A LOAD TABLES order being carried out (R12, R15): its staging reads are outstanding, or the tables
are installed and the named channels have still to take their new slots. -/
inductive PfsJob where
  | reading (slot : Fin 16)
  | clearing (slot : Fin 16) (todo : ChanSet)
deriving DecidableEq, Repr

/-- The profile store (R1, R12). -/
structure Pfs where
  loaded : Bool
  classes : List ClassEntry
  profiles : List Profile
  cradle : Cradle
  job : Option PfsJob
  waiting : List (Fin 16)
deriving DecidableEq, Repr

/-! ### The volume accounting unit -/

/-- Kinds of leaf (R21). -/
inductive Kind where
  | board
  | text
  | plate
  | tissue
  | foldout
  | lacuna
deriving DecidableEq, Repr

/-- Side statuses (section 3.3). -/
inductive Status where
  | pending
  | captured
  | retakeDue
  | withheld
  | skipped
  | exempt
deriving DecidableEq, Repr

/-- Volume states (Table 2-1). -/
inductive VolState where
  | noVolume
  | opening
  | ready
  | cycling
  | handWait
  | closing
deriving DecidableEq, Repr

/-- A plan entry (R20). -/
structure PlanEntry where
  kind : Kind
  panels : Nat
  tag : Nat
deriving DecidableEq, Repr

/-- A panel record (R39): accepted frame number, 0 for none, and check value. -/
structure Panel where
  number : Nat
  check : Nat
deriving DecidableEq, Repr

/-- A side record of the mirror (R39); the panel count is the length of the list. The dose is that of
OPENING: afterwards the LDU's accumulator is the side's dose (R36). -/
structure SideRec where
  status : Status
  takes : Nat
  dose : Nat
  panels : List Panel
deriving DecidableEq, Repr

/-- Last lift reading (R38, Table 11-13). -/
inductive LiftReading where
  | none
  | two
  | many
deriving DecidableEq, Repr

/-- A ledger entry of the mirror (R38, R39). -/
structure LedgerEntry where
  kind : Kind
  tag : Nat
  attempts : Nat
  reading : LiftReading
  amended : Bool
  uncertain : Bool
  verso : SideRec
  recto : SideRec
deriving DecidableEq, Repr

/-- The staging copy of the sheet header (R19, R26). -/
structure SheetHeader where
  text : List Byte
  key : Nat
  part : Nat
  resume : Nat
  length : Nat
deriving DecidableEq, Repr

/-- How far the OPEN VOLUME being carried out has come (R26 to R33). -/
inductive OpenPhase where
  | header
  | plan (h : SheetHeader)
  | ledger
  /-- the ledger writes are in flight; the volume dose is the one R29 or R31 gives -/
  | writes (volDose : Nat)
deriving DecidableEq, Repr

/-- An OPEN VOLUME being carried out. -/
structure OpenJob where
  slot : Fin 16
  phase : OpenPhase
deriving DecidableEq, Repr

/-- An order of VAU whose ledger writes are in flight: those numbered below `ticket`. -/
structure VauJob where
  slot : Fin 16
  ticket : Nat
deriving DecidableEq, Repr

/-- A CLOSE VOLUME being carried out: its step of R51 (1 to 4), its outcome, its writes in flight. -/
structure CloseJob where
  slot : Fin 16
  step : Nat
  complete : Bool
  ticket : Nat
deriving DecidableEq, Repr

/-- Reasons of a pause (Table 11-13). -/
inductive Reason where
  | liftFailed
  | doubleLift
  | leafDropped
  | stall
  | foldoutUnfold
  | foldoutPanel
  | foldoutRefold
  | doseLimit
  | noRoom
  | lampFault
  | cameraFault
  | armNotReady
deriving DecidableEq, Repr

/-- The pending hand step (R47). -/
structure HandStep where
  reason : Reason
  entry : Nat
deriving DecidableEq, Repr

/-- Outcomes of a judgement (Table 11-13). -/
inductive Outcome where
  | accepted
  | cut
  | lightFault
  | truncated
  | checkError
  | soft
  | lost
deriving DecidableEq, Repr

/-- A judgement as a channel reports it to VAU (R134). `madeFaulted` marks the LOST judgement that
made its channel FAULTED (R68, R137). -/
structure Judgement where
  chan : Chan
  leaf : Nat
  side : Side
  panel : Nat
  outcome : Outcome
  check : Nat
  /-- the flags DEGRADED and LIGHT_CONTACT of the notice (R133) -/
  degraded : Bool
  contact : Bool
  madeFaulted : Bool
  /-- reported before OCC asked for the fire of a later exposure on its channel: it is late, whatever OCC awaits
  when VAU takes it (R67; log 12) -/
  late : Bool
deriving DecidableEq, Repr

/-- The volume accounting unit (R18, R25, R40, R47). -/
structure Vau where
  vol : VolState
  plan : List PlanEntry
  key : Nat
  part : Nat
  text : List Byte
  profile : Option Nat
  cursor : Nat
  unfolded : Bool
  nextPanel : Nat
  nextFrame : Nat
  mirror : List LedgerEntry
  step : Option HandStep
  openJob : Option OpenJob
  openWaiting : List (Fin 16)
  amendJobs : List VauJob
  handJobs : List VauJob
  closeJob : Option CloseJob
  judgements : List Judgement
deriving DecidableEq, Repr

/-! ### The opening cycle controller -/

/-- Class of an exposure (Table 0-3). -/
inductive ExpClass where
  | normal
  | retake
deriving DecidableEq, Repr

/-- An exposure OCC makes: its captured sides and class; `panel` for a foldout panel, `auto` for an
automatic retake, `keep` when R63 drops no side of it. -/
structure Exposure where
  sides : ChanSet
  cls : ExpClass
  panel : Bool
  auto : Bool
  keep : Bool
deriving DecidableEq, Repr

/-- The kind and parameters of a cycle order (R57). -/
inductive CycleKind where
  | advance (n : Nat)
  | capture
  | turn
  | retake (entry : Nat) (side : Side) (panel : Nat)
deriving DecidableEq, Repr

/-- The order in flight (R57). -/
structure CycleOrder where
  slot : Fin 16
  kind : CycleKind
deriving DecidableEq, Repr

/-- A pause that waits for a check point (R73). -/
inductive PendingPause where
  | lampFault
  | cameraFault
deriving DecidableEq, Repr

/-- An entry of the retake list (R57, R68). -/
structure RetakeItem where
  leaf : Nat
  side : Side
  panel : Nat
deriving DecidableEq, Repr

/-- Banks A and B of a channel (section 8.1). -/
inductive BankId where
  | bankA
  | bankB
deriving DecidableEq, Repr

/-- A reserved descriptor with the address and capacity read at reservation (R145). -/
structure Reservation where
  bank : BankId
  index : Fin 4
  addr : Nat
  cap : Nat
deriving DecidableEq, Repr

/-- What OCC is doing: the wait it is in, or the request that is unanswered (R62 to R76). -/
inductive Work where
  | none
  | platen
  | channelWait (x : Exposure)
  | reserving (x : Exposure) (c : Chan)
  | roomWait (x : Exposure) (c : Chan)
  | admitting (x : Exposure)
  | arming (x : Exposure) (answered armed : ChanSet)
  | firing (x : Exposure)
  | judging (x : Exposure)
  | turning
  /-- a cancel, or an abandon or abort whose exposure has already been answered (R75, R118) -/
  | cancelling
  /-- the end of a stopped order waits for FBK's answers to its releases (R76, R147) -/
  | releasing
deriving DecidableEq, Repr

/-- The bound that fell short (R112). -/
inductive Bound where
  | sideLeft
  | sideRight
  | volume
deriving DecidableEq, Repr

/-- The LDU's answers to an admission request (R65, R102, R115). -/
inductive AdmissionReply where
  | admitted (time : Nat) (degraded : Bool)
  | split
  | withheld (side : Chan) (bound : Bound)
  | doseLimit (side : Chan) (bound : Bound)
  | abandoned
  | busy
deriving DecidableEq, Repr

/-- The LDU's answers to a fire request (R66, R102). -/
inductive FireReply where
  | strobeEnd
  | notReady
  | aborted
  | notAdmitted
deriving DecidableEq, Repr

/-- The turn sequencer's completions of a turn (R74). TURNED and every failure carry entry r, the leaf the turn was
lifting (R47, R90, R91, and STALL in the example of section 5.5; log 48). -/
inductive TurnReply where
  | turned (entry : Nat)
  | armNotReady
  | failed (reason : Reason) (entry : Nat)
  | stopped
deriving DecidableEq, Repr

/-- Answers and reports on their way to OCC. -/
inductive OccMsg where
  | reserved (c : Chan) (r : Reservation)
  | noRoom (c : Chan)
  | reserveBusy (c : Chan)
  /-- DONE to a release (R147) -/
  | released (c : Chan)
  | granted (c : Chan)
  | admission (a : AdmissionReply)
  | fire (a : FireReply)
  /-- DONE to a cancel, abort or abandon (R102, R118) -/
  | done
  | lampFault
  | armed (c : Chan) (ok : Bool)
  | faulted (c : Chan)
  | turn (a : TurnReply)
  | platen (ok : Bool)
deriving DecidableEq, Repr

/-- A watch of a timeout class: stopped, or running with its class (R10, R11). -/
abbrev Watch := Option Nat

/-- The opening cycle controller (R57, R64). -/
structure Occ where
  order : Option CycleOrder
  turnsLeft : Nat
  turnsMade : Nat
  takesMade : Nat
  /-- auto-retake counts of each entry: verso, recto -/
  auto : List (Nat × Nat)
  retakes : List RetakeItem
  pendingPause : Option PendingPause
  foldoutDone : Bool
  roomWatch : Watch
  work : Work
  /-- exposures of the phase still to make, after the one in `work` -/
  todo : List Exposure
  /-- reservations held and not yet armed -/
  held : Pair (Option Reservation)
  /-- channels whose release FBK has not answered yet (R76, R147) -/
  releasing : ChanSet
  /-- channels whose judgement the order awaits (R67) -/
  awaiting : ChanSet
  /-- the STOP orders being carried out; not empty while the order is being stopped (R75) -/
  stops : List (Fin 16)
  /-- outcome code of a RETAKE, once known (R71) -/
  outcome : Option Nat
  inbox : List OccMsg
deriving DecidableEq, Repr

/-! ### The turn sequencer -/

/-- Arm states (R77). -/
inductive Arm where
  | parked
  | moving
  | held
  | unknown
  | dead
deriving DecidableEq, Repr

/-- Vacuum states (R77). -/
inductive Vacuum where
  | off
  | on
  | heldAfterReset
deriving DecidableEq, Repr

/-- Platen states (R77). -/
inductive Platen where
  | up
  | down
  | contact
  | moving
  | unknown
deriving DecidableEq, Repr

/-- Work in flight (R77). -/
inductive TsqWork where
  | none
  | turn (cursor entry : Nat)
  | platen
  | park (slot : Fin 16)
deriving DecidableEq, Repr

/-- Stages of Figure 5-1, the retract of R94, and the wait for bank lit to fall (R81). -/
inductive Stage where
  | waitDark
  | platenUp
  | reach
  | separate
  | lift
  | read
  | release
  | sweep
  | setDown
  | goHome
  | platenDown
  | retract
deriving DecidableEq, Repr

/-- The failure decided for a turn that is returning (R77, R86). -/
inductive TurnFailure where
  | liftFailed
  | doubleLift
deriving DecidableEq, Repr

/-- Requests of OCC on their way to TSQ (R81, R89, R95). -/
inductive TsqMsg where
  | turn (cursor : Nat)
  | platen
  | stop
deriving DecidableEq, Repr

/-- The vacuum foot on the arm, as the lift drive has last put it (R84, R85, R96; log 43). -/
inductive Foot where
  | lowered
  | raised
deriving DecidableEq, Repr

/-- The turn sequencer (R77). -/
structure Tsq where
  arm : Arm
  vacuum : Vacuum
  /-- raised by LIFT, lowered by RELEASE and by a PARK with the release flag; a retract moves the arm with the
  foot as it was (R84, R85, R94, R96) -/
  foot : Foot
  platen : Platen
  relayOpen : Bool
  work : TsqWork
  stage : Option Stage
  attempts : Nat
  heavy : Nat
  level : Nat
  windowClosed : Bool
  failure : Option TurnFailure
  stopTaken : Bool
  /-- a STOP has turned the turn back: it ends STOPPED (R95, first two rows) -/
  turnedBack : Bool
  retryWatch : Watch
  stageWatch : Watch
  /-- the cut-delay watch: its exact length in ms while it runs (R94) -/
  cutWatch : Option Nat
  parkSw : Bool
  upSw : Bool
  downSw : Bool
  /-- the last reading of the platen's pressure sensor, whenever it came (R89; log 42) -/
  pressure : Nat
  inbox : List TsqMsg
deriving DecidableEq, Repr

/-! ### The light and dose unit -/

/-- Exposure states (R102). -/
inductive ExpState where
  | idle
  | charging
  | admitted
  | lit
deriving DecidableEq, Repr

/-- The exposure record (R98). -/
structure ExposureRec where
  sides : ChanSet
  cls : ExpClass
  mask : BitVec 4
  leftPage : Nat
  rightPage : Nat
  time : Nat
  degraded : Bool
  chargeLeft : Nat
  chargeRight : Nat
  driven : BitVec 4
  fault : Bool
  contact : Bool
deriving DecidableEq, Repr

/-- Requests of OCC on their way to the LDU (R101, R115 to R119). -/
inductive LduMsg where
  | request (sides : ChanSet) (cls : ExpClass)
  | fire
  | cancel (chans : ChanSet)
  | abort
  | abandon
deriving DecidableEq, Repr

/-- The light and dose unit (R98). Bit b of `retired` is set when bank b is RETIRED. -/
structure Ldu where
  retired : BitVec 4
  /-- side accumulators of each entry: verso, recto -/
  sideDose : List (Nat × Nat)
  volDose : Nat
  state : ExpState
  record : Option ExposureRec
  bankLit : Bool
  abandoned : Bool
  /-- a fall of ready-to-light that the unit has not taken yet (R120) -/
  fall : Bool
  inbox : List LduMsg
deriving DecidableEq, Repr

/-! ### The camera channels -/

/-- Channel states (Table 7-1). -/
inductive ChanState where
  | idle
  | armed
  | exposed
  | receiving
  | faulted
deriving DecidableEq, Repr

/-- Kinds of end-of-exposure notice (R117). -/
inductive NoticeKind where
  | exposed
  | lightFault
  | cut
deriving DecidableEq, Repr

/-- An end-of-exposure notice (R117). -/
structure Notice where
  kind : NoticeKind
  time : Nat
  degraded : Bool
  contact : Bool
  dose : Nat
deriving DecidableEq, Repr

/-- An arm request (R126). -/
structure ArmReq where
  desc : Reservation
  time : Nat
  leaf : Nat
  side : Side
  panel : Nat
deriving DecidableEq, Repr

/-- The take record (R124), with the body length of the header of its frame once that header is taken (R129). -/
structure TakeRec where
  desc : Reservation
  leaf : Nat
  side : Side
  panel : Nat
  tag : Nat
  key : Nat
  notice : Option Notice
  bodyLen : Option Nat
deriving DecidableEq, Repr

/-- Answers on the camera link (R122). -/
inductive AnswerKind where
  | taken
  | repeatSeen
  | spurned
deriving DecidableEq, Repr

/-- The link intake state (R123). In DISCARDING the answer, the take id, the body length and the
bytes counted off are kept. -/
inductive Intake where
  | between
  | taking
  | discarding (answer : AnswerKind) (takeId : BitVec 16) (length counted : Nat)
deriving DecidableEq, Repr

/-- Messages sent to a head (R122). -/
inductive HeadMsg where
  | arm (takeId : BitVec 16) (time leaf : Nat) (side : Side) (panel : Nat) (sync : Bool)
  | answer (kind : AnswerKind) (takeId : BitVec 16)
deriving DecidableEq, Repr

/-- A side-band slot (R152). -/
structure SbSlot where
  type : Nat
  storeOnError : Bool
  valid : Bool
  checkError : Bool
  age : Nat
  received : Bool
  length : Nat
  payload : List Byte
deriving DecidableEq, Repr

/-- A descriptor result (Table 7-3). -/
structure Result where
  outcome : Outcome
  degraded : Bool
  contact : Bool
  side : Side
  panel : Nat
  filled : Nat
  key : Nat
  leaf : Nat
  takeId : BitVec 16
  tag : Nat
  time : Nat
  dose : Nat
  focus : Nat
  check : Nat
  number : Nat
deriving DecidableEq, Repr

/-- The result of a judged take: being written, or waiting for the number of VAU (R134, R135). The
ANSWER of R135 is not sent for a CUT judged at its watch (R136). -/
structure ResultJob where
  result : Result
  awaitsNumber : Bool
  sendAnswer : Bool
deriving DecidableEq, Repr

/-- A camera channel (R124, R152). -/
structure Cch where
  state : ChanState
  takeId : BitVec 16
  lastDone : Option (BitVec 16)
  syncPending : Bool
  lost : Nat
  take : Option TakeRec
  received : Nat
  written : Nat
  crc : Word32
  frameWatch : Watch
  intake : Intake
  result : Option ResultJob
  slots : Vector SbSlot 4
  arms : List ArmReq
  notices : List Notice
  sent : List HeadMsg
deriving DecidableEq, Repr

/-- A READ SIDEBAND being carried out: channels still to copy, reports still to be written (R159). -/
structure SidebandJob where
  slot : Fin 16
  toCopy : ChanSet
  toWrite : ChanSet
deriving DecidableEq, Repr

/-- The READ SIDEBAND orders at the channels (R159). -/
structure Sideband where
  job : Option SidebandJob
  waiting : List (Fin 16)
deriving DecidableEq, Repr

/-! ### The frame bank manager -/

/-- Descriptor states (R143). -/
inductive DescState where
  | free
  | reserved
  | filled
deriving DecidableEq, Repr

/-- A bank: GRANTED or HOST, and its four descriptors (R143). -/
structure Bank where
  granted : Bool
  descs : Vector DescState 4
deriving DecidableEq, Repr

/-- A search in progress (R145, R146): the descriptor whose fields are being read, or whose UNUSABLE
result is being written. -/
inductive Search where
  | reading (index : Fin 4)
  | writing (index : Fin 4)
deriving DecidableEq, Repr

/-- Requests and reports on their way to FBK, for one channel (R145, R147, R148). -/
inductive FbkMsg where
  | reserve
  | release (bank : BankId) (index : Fin 4)
  | filled (bank : BankId) (index : Fin 4)
deriving DecidableEq, Repr

/-- The frame bank manager's state for one channel (R143). -/
structure Fbk where
  bankA : Bank
  bankB : Bank
  active : BankId
  search : Option Search
  owed : Bool
  inbox : List FbkMsg
deriving DecidableEq, Repr

/-! ### Host memory as the controller writes it -/

/-- Who issued a write, and which part it writes. -/
inductive Writer where
  | slotStatus (slot : Fin 16)
  | slotAnswer (slot : Fin 16)
  | vau
  | ldu
  | body (c : Chan)
  | result (c : Chan)
  | fbk (c : Chan)
  | report (c : Chan)
deriving DecidableEq, Repr

/-- A write issued and not yet completed. -/
structure HostWrite where
  writer : Writer
  serial : Nat
  addr : Nat
  bytes : List Byte
deriving DecidableEq, Repr

/-- Host memory: the bytes the controller has written, and its writes in flight in order of issue. -/
structure HostSide where
  mem : List Host.Cell
  inFlight : List HostWrite
  serial : Nat
deriving DecidableEq, Repr

/-! ### The whole controller -/

/-- The state of the controller and its queue of commands. -/
structure State where
  exp : Exp
  pfs : Pfs
  vau : Vau
  occ : Occ
  tsq : Tsq
  ldu : Ldu
  cch : Pair Cch
  sideband : Sideband
  fbk : Pair Fbk
  host : HostSide
  /-- the counter of the free values (log 6) -/
  free : Nat
  /-- the commands that wait, first in, first out -/
  pending : List Instr
deriving DecidableEq, Repr

/-! ### Reset values -/

/-- No channel. -/
def ChanSet.empty : ChanSet := ⟨false, false⟩

/-- Both channels. -/
def ChanSet.both : ChanSet := ⟨true, true⟩

/-- R161. -/
def Exp.reset : Exp where
  slots := Vector.replicate 16 .free
  queue := []
  take := none
  note := 0
  noteMask := 0
  enable := false
  base := 0
  baseRefused := false
  lastMispost := 0
  cause := .powerOn
  orders := []

/-- R1: every field zero. -/
def ClassEntry.zero : ClassEntry := ⟨false, 0, 0, 0⟩

/-- R1: every field zero. -/
def KindParams.zero : KindParams := ⟨0, [0, 0, 0, 0], 0, 0⟩

/-- R1: every field zero. -/
def Profile.zero : Profile where
  board := .zero
  text := .zero
  plate := .zero
  tissue := .zero
  foldout := .zero
  budget := 0
  tMin := 0
  reserve := 0
  doseMode := .unset
  attemptLimit := 0
  retryClass := 0
  platenClass := 0
  armClass := 0
  liftClass := 0
  frameClass := 0
  roomClass := 0
  stallAction := .unset
  cutCode := 0
  pressureLimit := 0
  autoLimit := 0
  wait := false
  gate := 0
  minFocus := 0

/-- R1: every slot type and flag zero. -/
def SlotConfig.zero : SlotConfig := ⟨[0, 0, 0, 0], [false, false, false, false]⟩

/-- R1: every setting zero. -/
def Cradle.zero : Cradle := ⟨[0, 0, 0, 0], 0, false, 0, ⟨.zero, .zero⟩⟩

/-- R1: the store EMPTY, and no order at PFS. -/
def Pfs.reset : Pfs := ⟨false, List.replicate 16 .zero, List.replicate 8 .zero, .zero, none, []⟩

/-- R18, R47, R56: no volume. -/
def Vau.reset : Vau where
  vol := .noVolume
  plan := []
  key := 0
  part := 0
  text := List.replicate 32 0
  profile := none
  cursor := 0
  unfolded := false
  nextPanel := 1
  nextFrame := 0
  mirror := []
  step := none
  openJob := none
  openWaiting := []
  amendJobs := []
  handJobs := []
  closeJob := none
  judgements := []

/-- R57: OCC holds no order. -/
def Occ.reset : Occ where
  order := none
  turnsLeft := 0
  turnsMade := 0
  takesMade := 0
  auto := []
  retakes := []
  pendingPause := none
  foldoutDone := false
  roomWatch := none
  work := .none
  todo := []
  held := ⟨none, none⟩
  releasing := .empty
  awaiting := .empty
  stops := []
  outcome := none
  inbox := []

/-- R77, with every position switch open and the pressure sensor at 0 (log 7), and the foot lowered (log 43):
POWER_ON_RESET takes the states from the switches. -/
def Tsq.reset : Tsq where
  arm := .unknown
  vacuum := .off
  foot := .lowered
  platen := .unknown
  relayOpen := false
  work := .none
  stage := none
  attempts := 0
  heavy := 0
  level := 0
  windowClosed := false
  failure := none
  stopTaken := false
  turnedBack := false
  retryWatch := none
  stageWatch := none
  cutWatch := none
  parkSw := false
  upSw := false
  downSw := false
  pressure := 0
  inbox := []

/-- R98. -/
def Ldu.reset : Ldu := ⟨0, [], 0, .idle, none, false, false, false, []⟩

/-- R152: a slot after either reset. -/
def SbSlot.reset : SbSlot := ⟨0, false, false, false, 0, false, 0, List.replicate 24 0⟩

/-- R124, R152. -/
def Cch.reset : Cch where
  state := .idle
  takeId := 0
  lastDone := none
  syncPending := true
  lost := 0
  take := none
  received := 0
  written := 0
  crc := 0
  frameWatch := none
  intake := .between
  result := none
  slots := Vector.replicate 4 .reset
  arms := []
  notices := []
  sent := []

/-- R143: a bank held by the host. -/
def Bank.reset : Bank := ⟨false, Vector.replicate 4 .free⟩

/-- R143. -/
def Fbk.reset : Fbk := ⟨.reset, .reset, .bankA, none, false, []⟩

/-- The controller right after power-on reset. The spec gives no level of the switches and no reading
of the sensor at power-on: every switch open and reading 0 are a DESIGN CHOICE (log 7). -/
def State.reset : State where
  exp := .reset
  pfs := .reset
  vau := .reset
  occ := .reset
  tsq := .reset
  ldu := .reset
  cch := ⟨.reset, .reset⟩
  sideband := ⟨none, []⟩
  fbk := ⟨.reset, .reset⟩
  host := ⟨[], [], 0⟩
  free := 0
  pending := []

end Sys2Proof.Machine
end

