-- ==== Sys2Proof/Machine/Crc.lean ====
section
/-! DEFINITION. The 32-bit CRC of R54, used for the closing sum (R53) and the frame check (R130, R131). -/

namespace Sys2Proof.Machine

/-- One shift step of R54: right by one bit, and EDB88320h combined in when a 1 was shifted out. -/
def crcShift (r : Word32) : Word32 :=
  if r.getLsbD 0 then (r >>> 1) ^^^ 0xEDB88320 else r >>> 1

/-- Step 2 of R54 for one byte: the byte into the low eight bits, then eight shift steps. -/
def crcByte (r : Word32) (b : Byte) : Word32 :=
  let r := r ^^^ b.zeroExtend 32
  crcShift (crcShift (crcShift (crcShift (crcShift (crcShift (crcShift (crcShift r)))))))

/-- Step 1 of R54. -/
def crcStart : Word32 := 0xFFFFFFFF

/-- Step 3 of R54: the final inversion. -/
def crcFinal (r : Word32) : Word32 := ~~~ r

/-- The CRC of a byte sequence (R54). -/
def crc (bytes : List Byte) : Word32 := crcFinal (bytes.foldl crcByte crcStart)

end Sys2Proof.Machine
end

