-- ==== Sys2Proof/Config.lean ====
section
/-! DEFINITION. The one value the spec leaves open for good: how much of a write that is in flight at
a reset reaches host memory (R56, R98, R140, R143, R159, R171). -/

namespace Sys2Proof

/-- Whether the n-th byte of the writes cut by resets reaches host memory. A FREE VALUE: it has no
body, so nothing can be proved of it; the counter it is applied to is `State.free` (log 6). -/
opaque Config.byteReaches : Nat → Bool

end Sys2Proof
end

