-- ==== Sys2Proof/Machine/Bytes.lean ====
section
/-! DEFINITION. Byte order (section 4.1: multi-byte fields are little-endian) and the laying out of
records by byte offset (chapter 11). -/

namespace Sys2Proof.Machine

/-- Byte i of a record as read, as a number; a byte beyond those read counts as 0 (log 3). -/
def byteAt (b : List Byte) (i : Nat) : Nat := (b.getD i 0).toNat

/-- The little-endian number in the n bytes from offset i. -/
def leNat (b : List Byte) (i : Nat) : Nat → Nat
  | 0 => 0
  | n + 1 => byteAt b i + 256 * leNat b (i + 1) n

/-- The n bytes of v, least significant first. -/
def leBytes (v : Nat) : Nat → List Byte
  | 0 => []
  | n + 1 => BitVec.ofNat 8 v :: leBytes (v / 256) n

/-- The bytes `new` laid over `b` from offset i. -/
def overlay (b : List Byte) (i : Nat) (new : List Byte) : List Byte :=
  b.take i ++ new ++ b.drop (i + new.length)

/-- A field of a record: its offset, its width in bytes, its value. -/
structure FieldVal where
  offset : Nat
  width : Nat
  value : Nat
deriving DecidableEq, Repr

/-- A record of n bytes holding the fields given, every other byte 0 (R173). -/
def layout (n : Nat) (fields : List FieldVal) : List Byte :=
  fields.foldl (fun b f => overlay b f.offset (leBytes f.value f.width)) (List.replicate n 0)

/-- One for true. -/
def bit (b : Bool) : Nat := if b then 1 else 0

end Sys2Proof.Machine
end

