-- ==== Sys2Proof/Machine/Ops.lean ====
section
/-! DEFINITION. The operations that several blocks share: channels, host memory and its writes in
flight, notes, the taking of orders by their owners, their answers, and the messages between blocks. -/

namespace Sys2Proof.Machine

/-- What a command answers. -/
abbrev StepOutcome := Host.Outcome State Fault Refusal

/-! ### Pairs -/

/-- The value of one channel. -/
def Pair.get {α : Type} (p : Pair α) : Chan → α
  | .left => p.left
  | .right => p.right

/-- The pair with one channel's value replaced. -/
def Pair.set {α : Type} (p : Pair α) (c : Chan) (x : α) : Pair α :=
  match c with
  | .left => { p with left := x }
  | .right => { p with right := x }

/-- Membership of a channel. -/
def ChanSet.has (s : ChanSet) (c : Chan) : Bool := Pair.get s c

/-- The set with a channel added. -/
def ChanSet.insert (s : ChanSet) (c : Chan) : ChanSet := Pair.set s c true

/-- The set with a channel taken out. -/
def ChanSet.erase (s : ChanSet) (c : Chan) : ChanSet := Pair.set s c false

/-- No channel is in the set. -/
def ChanSet.isEmpty (s : ChanSet) : Bool := !s.left && !s.right

/-- One channel alone. -/
def ChanSet.only (c : Chan) : ChanSet := ChanSet.insert .empty c

/-! ### Host memory (log 4): the bytes the controller has written -/

/-- The byte at an address, `none` where the controller has written nothing. -/
def Memory.read (m : List Host.Cell) (a : Nat) : Option Byte :=
  match m with
  | [] => none
  | (x, b) :: rest => if x = a then some b else Memory.read rest a

/-- The memory with one byte written, addresses kept strictly rising. -/
def Memory.write (m : List Host.Cell) (a : Nat) (v : Byte) : List Host.Cell :=
  match m with
  | [] => [(a, v)]
  | (x, b) :: rest =>
    if a < x then (a, v) :: (x, b) :: rest
    else if x = a then (a, v) :: rest
    else (x, b) :: Memory.write rest a v

/-- Bytes written from an address upward. -/
def Memory.writeBytes (m : List Host.Cell) (a : Nat) : List Byte → List Host.Cell
  | [] => m
  | v :: rest => Memory.writeBytes (Memory.write m a v) (a + 1) rest

/-- The canonical form: addresses strictly rising. An unlisted address has no value, so no entry can
equal what it reads as. -/
abbrev Memory.wf (m : List Host.Cell) : Prop := m.Pairwise (fun x y => x.1 < y.1)

/-! ### Writes in flight -/

/-- Offset 0 of the exchange area (R170). -/
def State.area (s : State) : Nat := s.exp.base.toNat * 4096

/-- A write issued to host memory. -/
def State.issue (s : State) (w : Writer) (addr : Nat) (bytes : List Byte) : State :=
  { s with host := { s.host with
      inFlight := s.host.inFlight ++ [⟨w, s.host.serial, addr, bytes⟩]
      serial := s.host.serial + 1 } }

/-- The completion of the writes in flight that `p` names, in the order they were issued. -/
def State.land (s : State) (p : HostWrite → Bool) : State :=
  { s with host := { s.host with
      mem := (s.host.inFlight.filter p).foldl (fun m w => Memory.writeBytes m w.addr w.bytes) s.host.mem
      inFlight := s.host.inFlight.filter (fun w => !p w) } }

/-- A write of this writer is in flight. -/
def State.hasInFlight (s : State) (w : Writer) : Bool := s.host.inFlight.any (fun x => x.writer == w)

/-- VAU's writes numbered below the ticket complete, in order of issue (R36). -/
def State.landVau (s : State) (ticket : Nat) : State :=
  s.land (fun w => w.writer == .vau && w.serial < ticket)

/-- One byte of a write cut by a reset: it reaches host memory if the free value says so (log 6). -/
def cutByte (acc : List Host.Cell × Nat × Nat) (v : Byte) : List Host.Cell × Nat × Nat :=
  let (m, a, n) := acc
  (if Config.byteReaches n then Memory.write m a v else m, a + 1, n + 1)

/-- A reset cuts every write in flight: each of its bytes may or may not reach host memory
(R56, R98, R140, R143, R159, R171). -/
def State.cutWrites (s : State) : State :=
  let cut := s.host.inFlight.foldl
    (fun (acc : List Host.Cell × Nat) w =>
      let (m, _, n) := w.bytes.foldl cutByte (acc.1, w.addr, acc.2)
      (m, n)) (s.host.mem, s.free)
  { s with host := { s.host with mem := cut.1, inFlight := [] }, free := cut.2 }

/-! ### Notes (R168) -/

/-- The seven notes at their bits of NOTE (Table 11-14). -/
inductive Note where
  | answer
  | bankL
  | bankR
  | hand
  | volumeEnd
  | mispost
  | arm
deriving DecidableEq, Repr

/-- The bit of a note in NOTE and NOTE_MASK (Table 11-14). -/
def Note.bit : Note → Nat
  | .answer => 0
  | .bankL => 1
  | .bankR => 2
  | .hand => 3
  | .volumeEnd => 4
  | .mispost => 5
  | .arm => 6

/-- A note raised, whatever its value before (R168). -/
def Exp.raise (e : Exp) (n : Note) : Exp := { e with note := e.note ||| (1#7 <<< n.bit) }

/-- A note raised through the exchange port (R168). -/
def State.raise (s : State) (n : Note) : State := { s with exp := s.exp.raise n }

/-! ### Order slots -/

/-- The state of a slot. -/
def Exp.slot (e : Exp) (i : Fin 16) : SlotState := e.slots[i.val]

/-- A slot's state replaced. -/
def Exp.setSlot (e : Exp) (i : Fin 16) (st : SlotState) : Exp := { e with slots := e.slots.set i.val st }

/-- The take of R163 and R164, when ENABLE is 1, no take is in progress and the queue is not empty:
the slot at the head becomes TAKEN and its read is outstanding. -/
def Exp.tryTake (e : Exp) : Exp :=
  match e.enable, e.take, e.queue with
  | true, none, i :: rest => { (e.setSlot i .taken) with take := some i, queue := rest }
  | _, _, _ => e

/-! ### Answers (R166) -/

/-- Answer codes (Table 11-13). -/
inductive AnswerCode where
  | done
  | badOrder
  | busy
  | volumeOpen
  | noVolume
  | noTables
  | noClass
  | badTable
  | badPlan
  | tooLate
  | incomplete
  | handWait
  | notWaiting
  | wrongStep
  | badCursor
  | endOfVolume
  | notAtOpening
  | foldedSide
  | paused
  | stopped
  | armDead
  | notDead
  | stall
deriving DecidableEq, Repr

/-- Numeric answer codes (Table 11-13). -/
def AnswerCode.code : AnswerCode → Nat
  | .done => 1
  | .badOrder => 2
  | .busy => 3
  | .volumeOpen => 4
  | .noVolume => 5
  | .noTables => 6
  | .noClass => 7
  | .badTable => 8
  | .badPlan => 9
  | .tooLate => 10
  | .incomplete => 11
  | .handWait => 12
  | .notWaiting => 13
  | .wrongStep => 14
  | .badCursor => 15
  | .endOfVolume => 16
  | .notAtOpening => 17
  | .foldedSide => 18
  | .paused => 19
  | .stopped => 20
  | .armDead => 21
  | .notDead => 22
  | .stall => 23

/-- Bytes 64 to 127 of a slot at the answer: status 2 ANSWERED, the code, and the result fields, whose
offsets are those of Table 11-4; every other byte 0 (R166, R173). -/
def answerBytes (code : AnswerCode) (fields : List FieldVal) : List Byte :=
  layout 64 (⟨0, 1, 2⟩ :: ⟨1, 1, code.code⟩ :: fields.map (fun f => { f with offset := f.offset - 64 }))

/-- The host address of an order slot (Table 11-1). -/
def State.slotAddr (s : State) (i : Fin 16) : Nat := s.area + 128 * i.val

/-- An owner answers an order: EXP issues one write of the answer part of the slot (R166). -/
def State.answer (s : State) (i : Fin 16) (code : AnswerCode) (fields : List FieldVal := []) : State :=
  s.issue (.slotAnswer i) (s.slotAddr i + 64) (answerBytes code fields)

/-! ### Orders on their way to their owners (R163, R164) -/

/-- The blocks that own orders (Table 10-3). -/
inductive Owner where
  | pfs
  | vau
  | occ
  | tsq
  | cch
deriving DecidableEq, Repr

/-- The owner of an order (section 2.3, Table 10-3). -/
def Order.owner : Order → Owner
  | .loadTables => .pfs
  | .openVolume | .amend .. | .handDone .. | .closeVolume .. => .vau
  | .advance .. | .capture | .turn | .retake .. | .stop => .occ
  | .park .. | .armRestore => .tsq
  | .readSideband => .cch

/-- The first order dispatched to an owner, and the orders left when it is taken (log 10). -/
def takeOrder (o : Owner) : List Dispatched → Option (Dispatched × List Dispatched)
  | [] => none
  | d :: rest =>
    if d.order.owner = o then some (d, rest)
    else (takeOrder o rest).map (fun r => (r.1, d :: r.2))

/-- The first order at an owner, and the state in which that owner has taken it. -/
def State.nextOrder (s : State) (o : Owner) : Option (Dispatched × State) :=
  (takeOrder o s.exp.orders).map (fun r => (r.1, { s with exp := { s.exp with orders := r.2 } }))

/-! ### Messages to OCC (log 9) -/

/-- The units that send to OCC; a unit's messages about one channel come in the order sent. -/
inductive Sender where
  | fbk (c : Chan)
  | ldu
  | cch (c : Chan)
  | tsq
deriving DecidableEq, Repr

/-- The sender of a message. -/
def OccMsg.sender : OccMsg → Sender
  | .reserved c _ | .noRoom c | .reserveBusy c | .released c | .granted c => .fbk c
  | .admission _ | .fire _ | .done | .lampFault => .ldu
  | .armed c _ | .faulted c => .cch c
  | .turn _ | .platen _ => .tsq

/-- A message sent to OCC. -/
def State.toOcc (s : State) (m : OccMsg) : State :=
  { s with occ := { s.occ with inbox := s.occ.inbox ++ [m] } }

/-- The first message of a sender, and the messages left when it is taken. -/
def takeMsg (f : Sender) : List OccMsg → Option (OccMsg × List OccMsg)
  | [] => none
  | m :: rest =>
    if m.sender = f then some (m, rest)
    else (takeMsg f rest).map (fun r => (r.1, m :: r.2))

/-- The first message of a sender, and the state in which OCC has taken it. -/
def State.nextMsg (s : State) (f : Sender) : Option (OccMsg × State) :=
  (takeMsg f s.occ.inbox).map (fun r => (r.1, { s with occ := { s.occ with inbox := r.2 } }))

/-! ### Messages to the other blocks -/

/-- A request of OCC sent to the LDU. -/
def State.toLdu (s : State) (m : LduMsg) : State :=
  { s with ldu := { s.ldu with inbox := s.ldu.inbox ++ [m] } }

/-- A request of OCC sent to TSQ. -/
def State.toTsq (s : State) (m : TsqMsg) : State :=
  { s with tsq := { s.tsq with inbox := s.tsq.inbox ++ [m] } }

/-- The channel's part of FBK replaced. -/
def State.setFbk (s : State) (c : Chan) (f : Fbk) : State := { s with fbk := s.fbk.set c f }

/-- A camera channel replaced. -/
def State.setCch (s : State) (c : Chan) (x : Cch) : State := { s with cch := s.cch.set c x }

/-- A request or report sent to FBK for a channel. -/
def State.toFbk (s : State) (c : Chan) (m : FbkMsg) : State :=
  let f := s.fbk.get c
  s.setFbk c { f with inbox := f.inbox ++ [m] }

/-! ### The profile in force -/

/-- The profile in force (R17), and the zero profile while no volume is open (no block reads it then). -/
def State.profile (s : State) : Profile :=
  match s.vau.profile with
  | some i => s.pfs.profiles.getD i .zero
  | none => .zero

/-- The set of parameters for a kind; LACUNA has none (R4). -/
def Profile.kind (p : Profile) : Kind → KindParams
  | .board => p.board
  | .text => p.text
  | .plate => p.plate
  | .tissue => p.tissue
  | .foldout => p.foldout
  | .lacuna => .zero

end Sys2Proof.Machine
end

