-- ==== Sys2Proof/Machine/Book.lean ====
section
/-! DEFINITION. The plan and the opening (chapter 2): kinds and initial statuses, physical entries,
the cursor's range, the pages of an opening, and the side records that stand behind them. -/

namespace Sys2Proof.Machine

/-- A physical entry is one whose kind is not LACUNA (R22). -/
def PlanEntry.physical (e : PlanEntry) : Bool := e.kind != .lacuna

/-- Entry e of the plan; beyond the plan there is no leaf (DESIGN CHOICE, log 47). -/
def planAt (plan : List PlanEntry) (e : Nat) : PlanEntry := plan.getD e ⟨.lacuna, 1, 0⟩

/-- The next physical entry after e (R22); the plan length where there is none (DESIGN CHOICE, log 47). -/
def nextPhysical (plan : List PlanEntry) (e : Nat) : Nat :=
  ((List.range plan.length).find? (fun i => e < i && (planAt plan i).physical)).getD plan.length

/-- Entry L: the last physical entry below N - 1 (R24); 0 where there is none (DESIGN CHOICE, log 47). -/
def lastOpening (plan : List PlanEntry) : Nat :=
  ((List.range (plan.length - 1)).reverse.find? (fun i => (planAt plan i).physical)).getD 0

/-- A cursor value of the opening range: a physical entry not above L (R24). -/
def inOpeningRange (plan : List PlanEntry) (c : Nat) : Bool :=
  (planAt plan c).physical && c ≤ lastOpening plan

/-- Entry r, the leaf of the RIGHT page (R23). -/
def Vau.rightEntry (v : Vau) : Nat := nextPhysical v.plan v.cursor

/-- The cursor is at the last opening (R24). -/
def Vau.atLastOpening (v : Vau) : Bool := v.cursor == lastOpening v.plan

/-- The side on a page: the verso on the LEFT, the recto on the RIGHT (R23). -/
def pageSide : Chan → Side
  | .left => .verso
  | .right => .recto

/-- The page a side lies on (R23). -/
def Side.chan : Side → Chan
  | .verso => .left
  | .recto => .right

/-- The entry whose side is the page (R23). -/
def Vau.pageEntry (v : Vau) : Chan → Nat
  | .left => v.cursor
  | .right => v.rightEntry

/-- The RIGHT page is a FOLDOUT recto (R25). -/
def Vau.rightIsFoldout (v : Vau) : Bool := (planAt v.plan v.rightEntry).kind == .foldout

/-- Initial side statuses by kind; `first` is entry 0, which tells the front board from the back board
(Table 2-2). -/
def initialStatus (k : Kind) (first : Bool) (side : Side) : Status :=
  match k, side with
  | .board, .verso => if first then .pending else .exempt
  | .board, .recto => if first then .exempt else .pending
  | .tissue, _ | .lacuna, _ => .exempt
  | .text, _ | .plate, _ | .foldout, _ => .pending

/-- A panel list of n records, none accepted (R39). -/
def emptyPanels (n : Nat) : List Panel := List.replicate n ⟨0, 0⟩

/-- Panels of a side under a plan entry: 1 for the verso, the plan's count for the recto (R39). -/
def PlanEntry.panelsOf (p : PlanEntry) : Side → Nat
  | .verso => 1
  | .recto => p.panels

/-- A side record as Table 2-2 sets it, with takes and dose given. -/
def initialSide (p : PlanEntry) (first : Bool) (side : Side) (takes dose : Nat) : SideRec :=
  ⟨initialStatus p.kind first side, takes, dose, emptyPanels (p.panelsOf side)⟩

/-- A ledger entry of a fresh volume (R29). -/
def freshEntry (p : PlanEntry) (first : Bool) : LedgerEntry where
  kind := p.kind
  tag := p.tag
  attempts := 0
  reading := .none
  amended := false
  uncertain := false
  verso := initialSide p first .verso 0 0
  recto := initialSide p first .recto 0 0

/-- A list mapped with the index of each entry, counted from k. -/
def mapFrom {α β : Type} (f : Nat → α → β) (k : Nat) : List α → List β
  | [] => []
  | x :: rest => f k x :: mapFrom f (k + 1) rest

/-- The mirror of a fresh volume (R29). -/
def freshMirror (plan : List PlanEntry) : List LedgerEntry := mapFrom (fun e p => freshEntry p (e == 0)) 0 plan

/-- The side record of an entry. -/
def LedgerEntry.sideRec (e : LedgerEntry) : Side → SideRec
  | .verso => e.verso
  | .recto => e.recto

/-- The entry with one side record replaced. -/
def LedgerEntry.setSide (e : LedgerEntry) (side : Side) (r : SideRec) : LedgerEntry :=
  match side with
  | .verso => { e with verso := r }
  | .recto => { e with recto := r }

/-- An entry beyond the plan: nothing is recorded of it (DESIGN CHOICE, log 47). -/
def LedgerEntry.absent : LedgerEntry := freshEntry ⟨.lacuna, 1, 0⟩ false

/-- Entry e of the mirror. -/
def Vau.entry (v : Vau) (e : Nat) : LedgerEntry := v.mirror.getD e .absent

/-- The side record of entry e. -/
def Vau.sideRec (v : Vau) (e : Nat) (side : Side) : SideRec := (v.entry e).sideRec side

/-- A change of one entry of the mirror. -/
def Vau.mapEntry (v : Vau) (e : Nat) (f : LedgerEntry → LedgerEntry) : Vau :=
  { v with mirror := v.mirror.modify e f }

/-- A change of one side record of the mirror. -/
def Vau.mapSide (v : Vau) (e : Nat) (side : Side) (f : SideRec → SideRec) : Vau :=
  v.mapEntry e (fun x => x.setSide side (f (x.sideRec side)))

/-- A side that a capture phase takes as a target when it is visible (R61). -/
def Status.isTarget : Status → Bool
  | .pending | .skipped | .retakeDue => true
  | .captured | .withheld | .exempt => false

/-- The page is a target (R61). -/
def Vau.isTarget (v : Vau) (c : Chan) : Bool := (v.sideRec (v.pageEntry c) (pageSide c)).status.isTarget

/-- Every side record of a mirror, in plan order, verso before recto. -/
def sidesOf (mirror : List LedgerEntry) : List SideRec := mirror.flatMap (fun e => [e.verso, e.recto])

/-- The number of sides in a status (R37). -/
def countStatus (mirror : List LedgerEntry) (st : Status) : Nat :=
  ((sidesOf mirror).filter (fun r => r.status == st)).length

end Sys2Proof.Machine
end

