-- ==== Sys2Proof/Machine/Records.lean ====
section
/-! DEFINITION. The bytes of the records the controller writes (R173, Tables 11-9 to 11-13): ledger
entries and header, close record, descriptor results, side-band reports, and link messages. -/

namespace Sys2Proof.Machine

/-! ### Codes (Table 11-13) -/

/-- Table 11-13, Kind. -/
def Kind.code : Kind → Nat
  | .board => 1
  | .text => 2
  | .plate => 3
  | .tissue => 4
  | .foldout => 5
  | .lacuna => 6

/-- Table 11-13, Side status. -/
def Status.code : Status → Nat
  | .pending => 1
  | .captured => 2
  | .retakeDue => 3
  | .withheld => 4
  | .skipped => 5
  | .exempt => 6

/-- Table 11-13, Side. -/
def Side.code : Side → Nat
  | .verso => 1
  | .recto => 2

/-- Table 11-13, Last lift reading. -/
def LiftReading.code : LiftReading → Nat
  | .none => 0
  | .two => 1
  | .many => 2

/-- Table 11-13, Outcome. -/
def Outcome.code : Outcome → Nat
  | .accepted => 1
  | .cut => 2
  | .lightFault => 3
  | .truncated => 4
  | .checkError => 5
  | .soft => 6
  | .lost => 7

/-- Table 11-13, Outcome UNUSABLE, which only the frame bank manager writes. -/
def unusableCode : Nat := 8

/-- The outcome WITHHELD of a RETAKE answer (Table 11-4). -/
def withheldCode : Nat := 9

/-- Table 11-13, Pause and hand-step reason. -/
def Reason.code : Reason → Nat
  | .liftFailed => 1
  | .doubleLift => 2
  | .leafDropped => 3
  | .stall => 4
  | .foldoutUnfold => 5
  | .foldoutPanel => 6
  | .foldoutRefold => 7
  | .doseLimit => 8
  | .noRoom => 9
  | .lampFault => 10
  | .cameraFault => 11
  | .armNotReady => 12

/-- Table 11-4, bound. -/
def Bound.code : Bound → Nat
  | .sideLeft => 1
  | .sideRight => 2
  | .volume => 3

/-! ### The ledger (Tables 11-9 and 11-10) -/

/-- Offset of the ledger header. -/
def ledgerHeaderOffset : Nat := 0x8000

/-- Offset of ledger entry e: 8100h + 192 x e (section 3.1). -/
def ledgerEntryOffset (e : Nat) : Nat := 0x8100 + 192 * e

/-- Offset of the close record. -/
def closeOffset : Nat := 0x1000

/-- Offset of a side record in its entry (Table 11-10). -/
def sideOffset : Side → Nat
  | .verso => 16
  | .recto => 88

/-- The fields of a side record from offset o. -/
def sideFields (o : Nat) (r : SideRec) : List FieldVal :=
  [⟨o, 1, r.status.code⟩, ⟨o + 1, 1, r.takes⟩, ⟨o + 2, 1, r.panels.length⟩, ⟨o + 4, 4, r.dose⟩]
    ++ (mapFrom (fun j (p : Panel) =>
        [FieldVal.mk (o + 8 + 8 * j) 4 p.number, FieldVal.mk (o + 12 + 8 * j) 4 p.check]) 0 r.panels).flatten

/-- The 192 bytes of a ledger entry. -/
def entryBytes (e : LedgerEntry) : List Byte :=
  layout 192 ([⟨0, 1, e.kind.code⟩, ⟨1, 1, bit e.amended + 2 * bit e.uncertain⟩, ⟨2, 1, e.attempts⟩,
      ⟨3, 1, e.reading.code⟩, ⟨4, 4, e.tag⟩]
    ++ sideFields 16 e.verso ++ sideFields 88 e.recto)

/-- The 256 bytes of the ledger header, with the volume dose given (Table 11-9). -/
def headerBytes (v : Vau) (volDose : Nat) : List Byte :=
  layout 256 [⟨0, 4, v.key⟩, ⟨4, 1, v.profile.getD 0⟩, ⟨8, 2, v.cursor⟩, ⟨12, 4, v.nextFrame⟩,
    ⟨16, 8, volDose⟩,
    ⟨24, 2, countStatus v.mirror .pending⟩, ⟨26, 2, countStatus v.mirror .captured⟩,
    ⟨28, 2, countStatus v.mirror .retakeDue⟩, ⟨30, 2, countStatus v.mirror .withheld⟩,
    ⟨32, 2, countStatus v.mirror .skipped⟩, ⟨34, 2, countStatus v.mirror .exempt⟩]

/-- Part of a record: the bytes from `lo` up to below `hi`. -/
def slice (b : List Byte) (lo hi : Nat) : List Byte := (b.drop lo).take (hi - lo)

/-- VAU issues its part of a ledger entry: every byte but the two dose fields (R173). -/
def State.writeEntry (s : State) (e : Nat) (x : LedgerEntry) : State :=
  let b := entryBytes x
  let a := s.area + ledgerEntryOffset e
  ((s.issue .vau a (slice b 0 20)).issue .vau (a + 24) (slice b 24 92)).issue .vau (a + 96) (slice b 96 192)

/-- VAU issues its part of the ledger header: every byte but the volume dose (R173). -/
def State.writeHeader (s : State) : State :=
  let b := headerBytes s.vau 0
  let a := s.area + ledgerHeaderOffset
  (s.issue .vau a (slice b 0 16)).issue .vau (a + 24) (slice b 24 256)

/-- During OPENING VAU writes every byte of an entry, doses included (R36, R173). -/
def State.writeEntryWhole (s : State) (e : Nat) (x : LedgerEntry) : State :=
  s.issue .vau (s.area + ledgerEntryOffset e) (entryBytes x)

/-- During OPENING VAU writes every byte of the header, the volume dose included (R36, R173). -/
def State.writeHeaderWhole (s : State) (volDose : Nat) : State :=
  s.issue .vau (s.area + ledgerHeaderOffset) (headerBytes s.vau volDose)

/-! ### The close record (Table 11-11) -/

/-- The fields of the close record, the valid flag excepted (R51, step 3). -/
structure CloseFields where
  complete : Bool
  totalTakes : Nat
  volDose : Nat
  lastFrame : Nat
  sum : Nat
deriving DecidableEq, Repr

/-- The outcome code of a close: 1 COMPLETE, 2 PARTIAL (Table 11-11). -/
def closeOutcome (complete : Bool) : Nat := if complete then 1 else 2

/-- The 256 bytes of the close record; byte 38 is written apart. -/
def closeBytes (v : Vau) (f : CloseFields) : List Byte :=
  overlay (layout 256 [⟨32, 4, v.key⟩, ⟨36, 1, v.part⟩, ⟨37, 1, closeOutcome f.complete⟩,
    ⟨40, 2, countStatus v.mirror .pending⟩, ⟨42, 2, countStatus v.mirror .captured⟩,
    ⟨44, 2, countStatus v.mirror .retakeDue⟩, ⟨46, 2, countStatus v.mirror .withheld⟩,
    ⟨48, 2, countStatus v.mirror .skipped⟩, ⟨50, 2, countStatus v.mirror .exempt⟩,
    ⟨52, 4, f.totalTakes⟩, ⟨56, 8, f.volDose⟩, ⟨64, 4, f.lastFrame⟩, ⟨68, 4, f.sum⟩]) 0 (v.text.take 32)

/-- VAU writes the closing-sum-valid flag alone (R51, R55). -/
def State.writeCloseValid (s : State) (v : Nat) : State :=
  s.issue .vau (s.area + closeOffset + 38) (leBytes v 1)

/-- A write of the valid flag alone (R55, R173). -/
def State.isCloseValid (s : State) (w : HostWrite) : Bool :=
  w.writer == .vau && w.addr == s.area + closeOffset + 38 && w.bytes.length == 1

/-- VAU writes every field of the close record but the valid flag (R51, step 3). -/
def State.writeCloseFields (s : State) (f : CloseFields) : State :=
  let b := closeBytes s.vau f
  let a := s.area + closeOffset
  (s.issue .vau a (slice b 0 38)).issue .vau (a + 39) (slice b 39 256)

/-! ### Frame descriptors (Table 11-12) -/

/-- The host address of a descriptor: LEFT A, LEFT B, RIGHT A, RIGHT B from 2000h (Table 11-1). -/
def State.descAddress (s : State) (c : Chan) (bank : BankId) (i : Fin 4) : Nat :=
  let c' := match c with | .left => 0 | .right => 512
  let b' := match bank with | .bankA => 0 | .bankB => 256
  s.area + 0x2000 + c' + b' + 64 * i.val

/-- Bytes 12 to 63 of a descriptor: a channel's result (Tables 7-3 and 11-12). -/
def resultBytes (r : Result) : List Byte :=
  (layout 64 [⟨12, 1, r.outcome.code⟩, ⟨13, 1, bit r.degraded + 2 * bit r.contact⟩,
    ⟨14, 1, r.side.code⟩, ⟨15, 1, r.panel⟩, ⟨16, 4, r.filled⟩, ⟨20, 4, r.key⟩, ⟨24, 2, r.leaf⟩,
    ⟨26, 2, r.takeId.toNat⟩, ⟨28, 4, r.tag⟩, ⟨32, 4, r.time⟩, ⟨36, 4, r.dose⟩, ⟨40, 2, r.focus⟩,
    ⟨44, 4, r.check⟩, ⟨48, 4, r.number⟩]).drop 12

/-- Bytes 12 to 63 of a descriptor passed over as UNUSABLE: the outcome, the key, and zeros (R146). -/
def unusableBytes (key : Nat) : List Byte :=
  (layout 64 [⟨12, 1, unusableCode⟩, ⟨20, 4, key⟩]).drop 12

/-! ### Side-band reports (section 11.6) -/

/-- The 32 bytes of a slot in a report. -/
def slotReport (x : SbSlot) : List Byte :=
  overlay (layout 32 [⟨0, 1, x.type⟩,
    ⟨1, 1, bit x.storeOnError + 2 * bit x.valid + 4 * bit x.checkError + 8 * bit x.received⟩,
    ⟨2, 1, x.age⟩, ⟨3, 1, x.length⟩]) 4 (x.payload.take 24)

/-- The 256 bytes of a channel's report: four slots, then zeros. -/
def reportBytes (slots : Vector SbSlot 4) : List Byte :=
  (slots.toList.map slotReport).flatten ++ List.replicate 128 0

/-- Offset of a channel's report (Table 11-1). -/
def reportOffset : Chan → Nat
  | .left => 0x1100
  | .right => 0x1200

/-! ### Messages to a head (section 11.6) -/

/-- Codes of an ANSWER (section 11.6). -/
def AnswerKind.code : AnswerKind → Nat
  | .taken => 1
  | .repeatSeen => 2
  | .spurned => 3

/-- The bytes after the start mark of a message to the head (section 11.6). -/
def HeadMsg.bytes : HeadMsg → List Byte
  | .arm id time leaf side panel sync =>
    leBytes id.toNat 2 ++ leBytes time 4 ++ leBytes leaf 2 ++ leBytes side.code 1 ++ leBytes panel 1
      ++ leBytes (bit sync) 1
  | .answer kind id => leBytes kind.code 1 ++ leBytes id.toNat 2

end Sys2Proof.Machine
end

