-- ==== Sys2Proof/Machine/FrameBankOps.lean ====
section
/-! DEFINITION. The frame bank manager's shared operations (chapter 8): the search for a descriptor,
release, filling, and the hand-over of a bank whole or in part. -/

namespace Sys2Proof.Machine

/-- The other bank of a channel. -/
def BankId.other : BankId → BankId
  | .bankA => .bankB
  | .bankB => .bankA

/-- A bank of the channel. -/
def Fbk.bank (f : Fbk) : BankId → Bank
  | .bankA => f.bankA
  | .bankB => f.bankB

/-- The channel with one bank replaced. -/
def Fbk.setBank (f : Fbk) (b : BankId) (x : Bank) : Fbk :=
  match b with
  | .bankA => { f with bankA := x }
  | .bankB => { f with bankB := x }

/-- The state of a descriptor. -/
def Bank.desc (b : Bank) (i : Fin 4) : DescState := b.descs[i.val]

/-- A descriptor's state replaced. -/
def Bank.setDesc (b : Bank) (i : Fin 4) (d : DescState) : Bank := { b with descs := b.descs.set i.val d }

/-- Some descriptor of the bank is in a state. -/
def Bank.has (b : Bank) (d : DescState) : Bool := (List.finRange 4).any (fun i => b.desc i == d)

/-- All four descriptors are FILLED (R148). -/
def Bank.full (b : Bank) : Bool := (List.finRange 4).all (fun i => b.desc i == .filled)

/-- The first FREE descriptor in ascending index order (R145). -/
def Bank.firstFree (b : Bank) : Option (Fin 4) := (List.finRange 4).find? (fun i => b.desc i == .free)

/-- The channel holds a RESERVED descriptor (R145). -/
def Fbk.hasReserved (f : Fbk) : Bool := f.bankA.has .reserved || f.bankB.has .reserved

/-- A release, or the report that a descriptor is consumed: a reservation ends by it (R147, R148). -/
def FbkMsg.endsReservation : FbkMsg → Bool
  | .reserve => false
  | .release .. | .filled .. => true

/-- A descriptor's state replaced. -/
def Fbk.setDesc (f : Fbk) (b : BankId) (i : Fin 4) (d : DescState) : Fbk :=
  f.setBank b ((f.bank b).setDesc i d)

/-- The note of a channel's banks (Table 10-2). -/
def bankNote : Chan → Note
  | .left => .bankL
  | .right => .bankR

/-- The bank after a hand-over: HOST, the other bank active, nothing owed (R149). -/
def Fbk.handOver (f : Fbk) (b : BankId) : Fbk :=
  { f.setBank b { f.bank b with granted := false } with active := b.other, owed := false }

/-- A hand-over of a bank in one event (R149). -/
def State.handOver (s : State) (c : Chan) (b : BankId) : State :=
  (s.setFbk c ((s.fbk.get c).handOver b)).raise (bankNote c)

/-- Steps 2 to 4 of R145, from which a search also goes on after an UNUSABLE descriptor (R146): the
active bank, its first FREE descriptor and the read of it, or NO_ROOM. R146 says that a search passes over at
most eight descriptors, but by its own steps a bank that is handed over during the search and that the host
GRANTs again before the search ends is searched again from 0: that the search follows the steps then, with no
bound of eight, is the MODEL'S CHOICE (DESIGN CHOICE, log 44). -/
def State.seek (s : State) (c : Chan) : State :=
  let f := s.fbk.get c
  let active := if !(f.bank f.active).granted && (f.bank f.active.other).granted
    then f.active.other else f.active
  let f := { f with active := active }
  let found := if (f.bank active).granted then (f.bank active).firstFree else none
  match found with
  | some i => s.setFbk c { f with search := some (.reading i) }
  | none => (s.setFbk c { f with search := none }).toOcc (.noRoom c)

/-- A RESERVED descriptor returned to FREE with no result; a hand-over owed for it is made in the same
event. Another descriptor is left as it is (R147, R150). -/
def State.releaseDesc (s : State) (c : Chan) (b : BankId) (i : Fin 4) : State :=
  let f := s.fbk.get c
  if (f.bank b).desc i = .reserved then
    let s' := s.setFbk c (f.setDesc b i .free)
    if f.owed then s'.handOver c b else s'
  else s

/-- A descriptor becomes FILLED and its bank is tested: handed over when all four are FILLED, or, for the
reservation of the channel, when a hand-over is owed (R148, R150). -/
def State.fillDesc (s : State) (c : Chan) (b : BankId) (i : Fin 4) (reservation : Bool) : State :=
  let f := s.fbk.get c
  let f' := f.setDesc b i .filled
  let s' := s.setFbk c f'
  if (f'.bank b).full || (reservation && f.owed) then s'.handOver c b else s'

/-- The partial hand-over test of one channel (R150). -/
def State.partialHandOverOf (s : State) (c : Chan) : State :=
  let f := s.fbk.get c
  let bank := f.bank f.active
  if bank.granted && bank.has .filled then
    if bank.has .reserved then s.setFbk c { f with owed := true } else s.handOver c f.active
  else s

/-- The partial hand-over on entry into READY, HAND_WAIT or NO_VOLUME (R150). -/
def State.partialHandOver (s : State) : State := (s.partialHandOverOf .left).partialHandOverOf .right

/-- The volume state enters READY, HAND_WAIT or NO_VOLUME (R150). -/
def State.enterRest (s : State) (v : VolState) : State :=
  { s with vau := { s.vau with vol := v } }.partialHandOver

end Sys2Proof.Machine
end

