-- ==== Sys2Proof/Machine/Dose.lean ====
section
/-! DEFINITION. The dose arithmetic of sections 6.5 to 6.7, stage by stage, exact over the natural
numbers (R109), and the decision on an admission request (R110 to R112). -/

namespace Sys2Proof.Machine

/-- ceil(a / b) (section 4.1). -/
def ceilDiv (a b : Nat) : Nat := (a + (b - 1)) / b

/-- The page a bank faces: banks 0 and 1 LEFT, banks 2 and 3 RIGHT (section 4.2). -/
def bankPage (b : Fin 4) : Chan := if b.val < 2 then .left else .right

/-- The bank mask of a request: the banks that face the captured sides (R101). -/
def bankMask (sides : ChanSet) : BitVec 4 :=
  (if sides.left then 0b0011#4 else 0) ||| (if sides.right then 0b1100#4 else 0)

/-- The kind of each page of the opening (R23, R101). -/
def Vau.pageKind (v : Vau) (c : Chan) : Kind := (planAt v.plan (v.pageEntry c)).kind

/-- L_b of R103: the level of bank b for the kind of the page it faces. -/
def bankLevel (s : State) (kinds : Pair Kind) (b : Fin 4) : Nat :=
  (s.profile.kind (kinds.get (bankPage b))).levels.getD b.val 0

/-- E_b of R103: 0 for a RETIRED bank, ceil(C_b x L_b / 255) for another. -/
def bankLux (s : State) (kinds : Pair Kind) (b : Fin 4) : Nat :=
  if s.ldu.retired.getLsbD b.val then 0
  else ceilDiv (s.pfs.cradle.calibration.getD b.val 0 * bankLevel s kinds b) 255

/-- E_b of a bank in the mask; a bank not in the mask takes no part (R103). -/
def maskedLux (s : State) (kinds : Pair Kind) (mask : BitVec 4) (b : Fin 4) : Nat :=
  if mask.getLsbD b.val then bankLux s kinds b else 0

/-- P_p of R104 from the four E_b: the page's own banks, and the spill of the other page's banks, each
spill term rounded up for itself. -/
def pageLux (lux : Fin 4 → Nat) (spill : Nat) : Chan → Nat
  | .left => lux 0 + lux 1 + (ceilDiv (lux 2 * spill) 256 + ceilDiv (lux 3 * spill) 256)
  | .right => lux 2 + lux 3 + (ceilDiv (lux 0 * spill) 256 + ceilDiv (lux 1 * spill) 256)

/-- R_side of R105: what the cap leaves above the dose, 0 when the dose meets it (natural subtraction). -/
def sideAllowance (cap dose : Nat) : Nat := cap - dose

/-- budget_du of R106. -/
def budgetDu (p : Profile) : Nat := p.budget * 1024

/-- The reserve of R106. -/
def reserveDu (p : Profile) : Nat := budgetDu p * p.reserve / 64

/-- R_vol of R106. -/
def volumeAllowance (p : Profile) (cls : ExpClass) (volDose : Nat) : Nat :=
  match cls with
  | .normal => budgetDu p - reserveDu p - volDose
  | .retake => budgetDu p - volDose

/-- t of R107: the captured page's strobe time, the smaller of the two for both. -/
def requestedTime (p : Profile) (kinds : Pair Kind) (sides : ChanSet) : Nat :=
  let l := (p.kind kinds.left).strobe
  let r := (p.kind kinds.right).strobe
  if sides.left && sides.right then min l r else if sides.left then l else r

/-- t_p of R108; a page without light gives no bound. -/
def pageBound (allowance lux : Nat) : Option Nat :=
  if lux = 0 then none else some (1000 * allowance / lux)

/-- t_vol of R108: R' = R_vol - (m - 1), with m the number of pages with light. -/
def volumeBound (allowance luxLeft luxRight : Nat) : Option Nat :=
  let m := (if luxLeft = 0 then 0 else 1) + (if luxRight = 0 then 0 else 1)
  if m = 0 then none else some (1000 * (allowance - (m - 1)) / (luxLeft + luxRight))

/-- The smaller of a time and a bound that may not exist. -/
def minBound (t : Nat) : Option Nat → Nat
  | none => t
  | some b => min t b

/-- The three bounds of R108. -/
structure Bounds where
  left : Option Nat
  right : Option Nat
  volume : Option Nat
deriving DecidableEq, Repr

/-- t' of R108. -/
def Bounds.admissible (b : Bounds) (t : Nat) : Nat := minBound (minBound (minBound t b.left) b.right) b.volume

/-- The bound that fell short: the smallest, the first in the order of R112 when two are equal. -/
def Bounds.shortest (b : Bounds) : Bound :=
  let le (x y : Option Nat) : Bool := match x, y with
    | some a, some c => a ≤ c
    | some _, none => true
    | none, _ => false
  if le b.left b.right && le b.left b.volume then .sideLeft
  else if le b.right b.volume then .sideRight
  else .volume

/-- D_p of R113. -/
def pageCharge (lux time : Nat) : Nat := ceilDiv (lux * time) 1000

/-- The dose of a page's side (R98). -/
def Ldu.dose (l : Ldu) (e : Nat) : Side → Nat
  | .verso => (l.sideDose.getD e (0, 0)).1
  | .recto => (l.sideDose.getD e (0, 0)).2

/-- A charge added to a side accumulator (R113). -/
def addDose (d : List (Nat × Nat)) (e : Nat) (side : Side) (x : Nat) : List (Nat × Nat) :=
  d.modify e (fun p => match side with | .verso => (p.1 + x, p.2) | .recto => (p.1, p.2 + x))

/-- What R103 to R108 give for one request. -/
structure DoseCase where
  luxLeft : Nat
  luxRight : Nat
  bounds : Bounds
  requested : Nat
  time : Nat
deriving DecidableEq, Repr

/-- The kinds of the two pages. -/
def State.pageKinds (s : State) : Pair Kind := ⟨s.vau.pageKind .left, s.vau.pageKind .right⟩

/-- The side allowance of a page (R105). -/
def State.pageAllowance (s : State) (c : Chan) : Nat :=
  sideAllowance (s.profile.kind (s.vau.pageKind c)).cap (s.ldu.dose (s.vau.pageEntry c) (pageSide c))

/-- Stages one to four of the arithmetic for a request (R101, R103 to R108). -/
def State.doseCase (s : State) (sides : ChanSet) (cls : ExpClass) : DoseCase :=
  let kinds := s.pageKinds
  let lux := maskedLux s kinds (bankMask sides)
  let pl := pageLux lux s.pfs.cradle.spill .left
  let pr := pageLux lux s.pfs.cradle.spill .right
  let bounds : Bounds := ⟨pageBound (s.pageAllowance .left) pl, pageBound (s.pageAllowance .right) pr,
    volumeBound (volumeAllowance s.profile cls s.ldu.volDose) pl pr⟩
  let t := requestedTime s.profile kinds sides
  ⟨pl, pr, bounds, t, bounds.admissible t⟩

/-- The sum of all side accumulators (R99). -/
def doseSum (d : List (Nat × Nat)) : Nat := (d.map (fun p => p.1 + p.2)).sum

end Sys2Proof.Machine
end

