-- ==== Sys2Proof/Machine/LightOps.lean ====
section
/-! DEFINITION. The light and dose unit's shared operations (chapter 6): the charge and its writes, the
notices to the channels, and the start of a strobe. -/

namespace Sys2Proof.Machine

/-- A notice sent to a channel (R117). -/
def State.notify (s : State) (c : Chan) (n : Notice) : State :=
  let x := s.cch.get c
  s.setCch c { x with notices := x.notices ++ [n] }

/-- The dose charged to the page of a channel (R117). -/
def ExposureRec.charge (r : ExposureRec) : Chan → Nat
  | .left => r.chargeLeft
  | .right => r.chargeRight

/-- The notice of R117 for a channel of the exposure. -/
def ExposureRec.notice (r : ExposureRec) (kind : NoticeKind) (contact : Bool) (c : Chan) : Notice :=
  ⟨kind, r.time, r.degraded, contact, r.charge c⟩

/-- The notice sent to each channel of a set, LEFT first. -/
def State.notifyAll (s : State) (chans : ChanSet) (f : Chan → Notice) : State :=
  let s := if chans.left then s.notify .left (f .left) else s
  if chans.right then s.notify .right (f .right) else s

/-- The exposure ends: IDLE, the record empty, every bank dark, and no fall or abandon to take (R98,
R102). -/
def Ldu.idle (l : Ldu) : Ldu :=
  { l with state := .idle, record := none, bankLit := false, abandoned := false, fall := false }

/-- Host address of the dose field of a page's side record (R114, Table 11-10). -/
def State.doseAddr (s : State) (e : Nat) (side : Side) : Nat :=
  s.area + ledgerEntryOffset e + sideOffset side + 4

/-- Host address of the volume dose of the header (Table 11-9). -/
def State.volDoseAddr (s : State) : Nat := s.area + ledgerHeaderOffset + 16

/-- The charge of R113 for a request admitted with the case given, and the three writes of R114. -/
def State.charge (s : State) (sides : ChanSet) (cls : ExpClass) (d : DoseCase) : State :=
  let e := s.vau.pageEntry .left
  let r := s.vau.pageEntry .right
  let dl := pageCharge d.luxLeft d.time
  let dr := pageCharge d.luxRight d.time
  let record : ExposureRec :=
    { sides := sides, cls := cls, mask := bankMask sides, leftPage := e, rightPage := r, time := d.time,
      degraded := d.time < d.requested, chargeLeft := dl, chargeRight := dr, driven := 0, fault := false,
      contact := false }
  let ldu := { s.ldu with
    sideDose := addDose (addDose s.ldu.sideDose e .verso dl) r .recto dr
    volDose := s.ldu.volDose + (dl + dr)
    state := .charging
    record := some record
    abandoned := false }
  let s := { s with ldu := ldu }
  ((s.issue .ldu (s.doseAddr e .verso) (leBytes (ldu.dose e .verso) 4)).issue .ldu (s.doseAddr r .recto)
    (leBytes (ldu.dose r .recto) 4)).issue .ldu s.volDoseAddr (leBytes ldu.volDose 8)

/-- The banks a strobe drives: in the mask, READY, and with E_b above 0 (R100). -/
def State.drivenBanks (s : State) (mask : BitVec 4) : BitVec 4 :=
  let on (b : Fin 4) : BitVec 4 :=
    if mask.getLsbD b.val && bankLux s s.pageKinds b != 0 then 1#4 <<< b.val else 0
  on 0 ||| on 1 ||| on 2 ||| on 3

/-- The level at which bank b is driven: L_b for a driven bank of the strobe that is lit, from the pages of its
exposure record, and 0 for a bank that is dark (R100, R117, R121). -/
def State.bankDrive (s : State) (b : Fin 4) : Nat :=
  match s.ldu.record with
  | some r =>
    if s.ldu.bankLit && r.driven.getLsbD b.val then
      bankLevel s ⟨(planAt s.vau.plan r.leftPage).kind, (planAt s.vau.plan r.rightPage).kind⟩ b
    else 0
  | none => 0

end Sys2Proof.Machine
end

