-- ==== Sys2Proof/Machine/Timers.lean ====
section
/-! DEFINITION. Timeout classes (R10, R11). State holds whether a watch runs and with which class; the
moment of an expiry is given by its command (log 8). The lengths are stated here as arithmetic. -/

namespace Sys2Proof.Machine

/-- A watch that can expire: it runs, and its class is not 0 (R10). -/
def Watch.mayExpire (w : Watch) : Bool :=
  match w with
  | some code => code != 0
  | none => false

/-- The granule of a class code in ms: 2^(code - 1) (R10). -/
def granule (code : Nat) : Nat := 2 ^ (code - 1)

/-- The moment, on a time base of unit steps with granule ticks at the multiples of `g`, of the fourth
tick after `start`; a tick at the start itself is not counted (R10). -/
def expiryMoment (g start : Nat) : Nat := (start / g + 4) * g

/-- The cut delay of code k in ms: 2^k x 16, exact (R6, R94). -/
def cutDelay (k : Nat) : Nat := 2 ^ k * 16

end Sys2Proof.Machine
end

