-- ==== Sys2Proof/Machine/ChannelOps.lean ====
section
/-! DEFINITION. The camera channels' shared operations (chapters 7 and 9): restarts, the judgement of a
take, the focus gate and the ageing of side-band slots, and the end of a frame at a start mark. -/

namespace Sys2Proof.Machine

/-- A take is outstanding in ARMED, EXPOSED and RECEIVING (Table 7-1). -/
def ChanState.outstanding : ChanState → Bool
  | .armed | .exposed | .receiving => true
  | .idle | .faulted => false

/-- A take of the channel is outstanding, or its judgement has not been taken by VAU yet: so no judgement
reaches VAU once CLOSING has begun (R50, R76; log 12). -/
def State.takeOutstanding (s : State) (c : Chan) : Bool :=
  (s.cch.get c).state.outstanding || s.vau.judgements.any (fun j => j.chan == c)

/-- A restart of the channel's numbering (R125). -/
def Cch.restart (x : Cch) : Cch :=
  { x with takeId := 0, lastDone := none, syncPending := true, lost := 0 }

/-- A FAULTED channel named by an accepted cycle order is cleared (R138). -/
def Cch.clearFaulted (x : Cch) : Cch :=
  if x.state = .faulted then { x.restart with state := .idle } else x

/-- A message sent to the head (R122). -/
def Cch.send (x : Cch) (m : HeadMsg) : Cch := { x with sent := x.sent ++ [m] }

/-! ### Side-band slots (chapter 9) -/

/-- A side-band slot of the channel. -/
def Cch.slot (x : Cch) (i : Fin 4) : SbSlot := x.slots[i.val]

/-- Every slot of the channel replaced. -/
def Cch.mapSlots (x : Cch) (f : Fin 4 → SbSlot → SbSlot) : Cch :=
  { x with slots := #v[f 0 (x.slot 0), f 1 (x.slot 1), f 2 (x.slot 2), f 3 (x.slot 3)] }

/-- Ageing of one slot by a judgement (R156). -/
def SbSlot.aged (b : SbSlot) : SbSlot :=
  { b with age := if b.received then b.age else min 3 (b.age + 1), received := false }

/-- Ageing of the channel's four slots (R156). -/
def Cch.ageSlots (x : Cch) : Cch := x.mapSlots (fun _ b => b.aged)

/-- The score of a slot: its first two payload bytes, least significant first (R157). -/
def SbSlot.score (b : SbSlot) : Nat := leNat (b.payload.take b.length) 0 2

/-- The focus gate slot of the profile in force, `none` for NONE (R7, Table 11-13). -/
def Profile.gateSlot (p : Profile) : Option (Fin 4) :=
  if h : 1 ≤ p.gate ∧ p.gate ≤ 4 then some ⟨p.gate - 1, by omega⟩ else none

/-- The focus gate test on a slot (R157). -/
def SbSlot.passes (b : SbSlot) (minFocus : Nat) : Bool :=
  b.valid && b.age < 3 && !b.checkError && minFocus ≤ b.score

/-- The take passes the gate, or the gate is NONE (R157). -/
def Cch.gatePasses (x : Cch) (p : Profile) : Bool :=
  match p.gateSlot with
  | none => true
  | some g => (x.slot g).passes p.minFocus

/-- The focus score written into a descriptor result (R158). -/
def Cch.focusScore (x : Cch) (p : Profile) : Nat :=
  match p.gateSlot with
  | none => 0
  | some g => if (x.slot g).valid then (x.slot g).score else 0

/-- The body writes of a take that ends without a result complete: the bytes stay in the buffer (R130, R136,
R147; log 5). -/
def State.landBody (s : State) (c : Chan) : State := s.land (fun w => w.writer == .body c)

/-! ### Judgement (R131, R133 to R136) -/

/-- The judgement of a take whose frame has ended, by the first line of Table 7-2 that applies. -/
def judge (kind : NoticeKind) (truncated checkOk gateOk : Bool) : Outcome :=
  match kind with
  | .cut => .cut
  | .lightFault => .lightFault
  | .exposed =>
    if truncated then .truncated
    else if !checkOk then .checkError
    else if !gateOk then .soft
    else .accepted

/-- The notice kept in the take record; a frame is taken only after the notice (R129). -/
def TakeRec.noticeOf (t : TakeRec) : Notice := t.notice.getD ⟨.exposed, 0, false, false, 0⟩

/-- The body length in the take record: what the header of the frame being taken gave (R129). No frame is being
taken while the record holds none, which counts as 0 (DESIGN CHOICE, log 47). -/
def Cch.bodyLength (x : Cch) : Nat := (x.take.bind TakeRec.bodyLen).getD 0

/-- The judgement of a take as it is reported, with the two flags of its notice (R133, R134). -/
def TakeRec.judgement (t : TakeRec) (c : Chan) (outcome : Outcome) (check : Nat) (madeFaulted : Bool) :
    Judgement :=
  ⟨c, t.leaf, t.side, t.panel, outcome, check, t.noticeOf.degraded, t.noticeOf.contact, madeFaulted, false⟩

/-- The descriptor result of a take (Table 7-3), with accepted frame number 0. -/
def Cch.resultOf (x : Cch) (t : TakeRec) (p : Profile) (outcome : Outcome) (filled check : Nat) : Result where
  outcome := outcome
  degraded := t.noticeOf.degraded
  contact := t.noticeOf.contact
  side := t.side
  panel := t.panel
  filled := filled
  key := t.key
  leaf := t.leaf
  takeId := x.takeId
  tag := t.tag
  time := t.noticeOf.time
  dose := t.noticeOf.dose
  focus := x.focusScore p
  check := check
  number := 0

/-- A judgement reported to VAU (R134). -/
def State.report (s : State) (j : Judgement) : State :=
  { s with vau := { s.vau with judgements := s.vau.judgements ++ [j] } }

/-- An ACCEPTED outcome sets the consecutive-LOST count to 0, in the event in which VAU takes the judgement
(R134; log 21). -/
def State.clearLost (s : State) (c : Chan) : State := s.setCch c { s.cch.get c with lost := 0 }

/-- The write of a descriptor result issued (R135). -/
def State.issueResult (s : State) (c : Chan) (d : Reservation) (r : Result) : State :=
  s.issue (.result c) (s.descAddress c d.bank d.index + 12) (resultBytes r)

/-- The frame of the outstanding take has ended, at its trailer or at a start mark: the take is judged,
the slots age, the judgement is reported, and the result is written, for ACCEPTED once VAU has given its
number (R131, R133 to R135, R156). The intake counts and the CRC keep their values until the next frame
that is taken (DESIGN CHOICE, log 35). -/
def State.endFrame (s : State) (c : Chan) (checkOk : Bool) : State :=
  let x := s.cch.get c
  match x.take with
  | none => s.setCch c { x with intake := .between, frameWatch := none }
  | some t =>
    let outcome := judge t.noticeOf.kind (t.desc.cap < x.bodyLength) checkOk (x.gatePasses s.profile)
    let check := (crcFinal x.crc).toNat
    let r := x.resultOf t s.profile outcome x.written check
    let x := x.ageSlots
    let x := { x with
      frameWatch := none
      lastDone := some x.takeId
      intake := .between
      result := some ⟨r, outcome == .accepted, true⟩ }
    let s := (s.setCch c x).report (t.judgement c outcome check false)
    if outcome = .accepted then s else s.issueResult c t.desc r

/-- The intake of a channel whose take ends while its frame may still be arriving: a frame being taken is
counted off and spurned (R32, R136). -/
def Cch.abandonFrame (x : Cch) : Intake :=
  match x.intake with
  | .taking => .discarding .spurned x.takeId x.bodyLength x.received
  | i => i

/-- A start mark on the link: a frame in progress ends short, and the new message is then taken from
BETWEEN (R123, R131, R132). -/
def State.startMark (s : State) (c : Chan) : State :=
  let x := s.cch.get c
  match x.intake with
  | .between => s
  | .taking => s.endFrame c false
  | .discarding kind id _ _ => s.setCch c ({ x with intake := .between }.send (.answer kind id))

end Sys2Proof.Machine
end

