-- ==== Sys2Proof/Machine/Flags.lean ====
section
/-! DEFINITION. The flags and masks that the registers show: POST, ANSWERED, GRANT, NOTE, INT and
STATUS (R161, R168, R169, R172, R174), and the value each register reads as. -/

namespace Sys2Proof.Machine

/-- The mask of 16 slots, bit i for slot i. -/
def slotMask (p : Fin 16 → Bool) : Word32 :=
  (List.finRange 16).foldl (fun m i => if p i then m ||| (1#32 <<< i.val) else m) 0

/-- POST reads as the set of PENDING slots (R162). -/
def Exp.postMask (e : Exp) : Word32 := slotMask (fun i => e.slot i == .pending)

/-- ANSWERED: set exactly for the ANSWERED slots (R161). -/
def Exp.answeredMask (e : Exp) : Word32 := slotMask (fun i => e.slot i == .answered)

/-- Every slot is FREE (R170). -/
def Exp.allFree (e : Exp) : Bool := (List.finRange 16).all (fun i => e.slot i == .free)

/-- INT: at least one note raised with its enable set (R169). -/
def Exp.int (e : Exp) : Bool := e.note &&& e.noteMask != 0

/-- NOTE or NOTE_MASK as a whole register: bits that name no note read as 0 (R168, R169). -/
def noteWord (n : BitVec 7) : Word32 := n.zeroExtend 32

/-- GRANT reads as the mask of GRANTED banks: L-A, L-B, R-A, R-B (R143, Table 11-14). -/
def State.grantMask (s : State) : Word32 :=
  BitVec.ofNat 32 (bit s.fbk.left.bankA.granted + 2 * bit s.fbk.left.bankB.granted
    + 4 * bit s.fbk.right.bankA.granted + 8 * bit s.fbk.right.bankB.granted)

/-- STATUS codes of the volume state (section 11.8). -/
def VolState.code : VolState → Nat
  | .noVolume => 0
  | .opening => 1
  | .ready => 2
  | .cycling => 3
  | .handWait => 4
  | .closing => 5

/-- STATUS codes of the arm (section 11.8). -/
def Arm.code : Arm → Nat
  | .parked => 0
  | .moving => 1
  | .held => 2
  | .unknown => 3
  | .dead => 4

/-- STATUS codes of the vacuum (section 11.8). -/
def Vacuum.code : Vacuum → Nat
  | .off => 0
  | .on => 1
  | .heldAfterReset => 2

/-- STATUS codes of the platen (section 11.8). -/
def Platen.code : Platen → Nat
  | .up => 0
  | .down => 1
  | .contact => 2
  | .moving => 3
  | .unknown => 4

/-- STATUS as it stands in the event of the read (R172, Table 11-14). -/
def State.statusWord (s : State) : Word32 :=
  BitVec.ofNat 32 (s.vau.vol.code + 2 ^ 4 * s.tsq.arm.code + 2 ^ 8 * s.tsq.vacuum.code
    + 2 ^ 12 * s.tsq.platen.code + 2 ^ 16 * bit s.pfs.loaded
    + 2 ^ 17 * bit (s.exp.cause == .controller) + 2 ^ 18 * bit s.exp.baseRefused
    + 2 ^ 20 * s.exp.lastMispost.val)

/-- The value a register reads as; a read changes no state (R174). -/
def State.readRegister (s : State) : Reg → Word32
  | .control => BitVec.ofNat 32 (bit s.exp.enable)
  | .status => s.statusWord
  | .base => s.exp.base
  | .post => s.exp.postMask
  | .answered => s.exp.answeredMask
  | .note => noteWord s.exp.note
  | .noteMask => noteWord s.exp.noteMask
  | .grant => s.grantMask

/-- The power relay of the arm, the air-knife burst and the brake follow the sequencer's state
(R77, R82): the burst runs in SEPARATE. -/
def Tsq.burst (t : Tsq) : Bool := t.stage == some .separate

/-- The interlock signal "ready to light" (R80). -/
def Tsq.ready (t : Tsq) : Bool := t.arm == .parked && (t.platen == .down || t.platen == .contact)

end Sys2Proof.Machine
end

