-- ==== Sys2Proof/Machine/Ledger.lean ====
section
/-! DEFINITION. Changes of the account (chapter 3): every change is made in the ledger mirror and the
changed records are then issued to host memory (R36, R37); skip marking, acceptance, rejection,
withhold and the records of a turn's failures. -/

namespace Sys2Proof.Machine

/-- The entries that differ between two mirrors, with their indexes counted from k. -/
def changedFrom (k : Nat) : List LedgerEntry → List LedgerEntry → List (Nat × LedgerEntry)
  | x :: xs, y :: ys => if x = y then changedFrom (k + 1) xs ys else (k, y) :: changedFrom (k + 1) xs ys
  | _, _ => []

/-- The statuses of every side, in plan order. -/
def statusesOf (mirror : List LedgerEntry) : List Status := (sidesOf mirror).map (·.status)

/-- The header is written after an event that changes the cursor, the next accepted-frame number or any
side status (R37). -/
def headerChanged (old new : Vau) : Bool :=
  old.cursor != new.cursor || old.nextFrame != new.nextFrame
    || statusesOf old.mirror != statusesOf new.mirror

/-- VAU writes each record it has changed since `old`, entries before the header (R36); `header` asks
for the header in any case. -/
def State.commit (s : State) (old : Vau) (header : Bool) : State :=
  let s' := (changedFrom 0 old.mirror s.vau.mirror).foldl (fun s p => s.writeEntry p.1 p.2) s
  if header || headerChanged old s.vau then s'.writeHeader else s'

/-- A change of VAU's account with the writes it causes (R36, R37). -/
def State.changeAccount (s : State) (f : Vau → Vau) (header : Bool := false) : State :=
  { s with vau := f s.vau }.commit s.vau header

/-! ### Statuses -/

/-- Skip marking of one status (R44). -/
def Status.skip (st : Status) : Status := if st = .pending then .skipped else st

/-- A rejection with no retake following (R42). -/
def Status.reject : Status → Status
  | .pending | .skipped => .retakeDue
  | st => st

/-- A withhold (R43). -/
def Status.withhold : Status → Status
  | .pending | .skipped | .retakeDue => .withheld
  | st => st

/-- Skip marking of entry e on an advance from c to c' (R44): the verso of every physical entry from c
to below c', and the recto of every physical entry from above c to c'. -/
def skipEntry (plan : List PlanEntry) (c c' e : Nat) (x : LedgerEntry) : LedgerEntry :=
  if (planAt plan e).physical then
    { x with
      verso := if c ≤ e ∧ e < c' then { x.verso with status := x.verso.status.skip } else x.verso
      recto := if c < e ∧ e ≤ c' then { x.recto with status := x.recto.status.skip } else x.recto }
  else x

/-- Skip marking of the mirror (R44); nothing is hidden unless c' is above c (R45). -/
def skipMark (plan : List PlanEntry) (c c' : Nat) (mirror : List LedgerEntry) : List LedgerEntry :=
  mapFrom (skipEntry plan c c') 0 mirror

/-- A cursor move: skip marking on an advance, the foldout FOLDED and the next panel 1 (R25, R44, R45). -/
def Vau.moveCursor (v : Vau) (c : Nat) : Vau :=
  { v with mirror := skipMark v.plan v.cursor c v.mirror, cursor := c, unfolded := false, nextPanel := 1 }

/-! ### Judgements -/

/-- One more take of a side, saturating at 255 (R39). -/
def SideRec.countTake (r : SideRec) : SideRec := { r with takes := min 255 (r.takes + 1) }

/-- Every panel of the list holds an accepted frame number (R41). -/
def SideRec.complete (r : SideRec) : Bool := r.panels.all (fun p => p.number != 0)

/-- An acceptance of a panel: its record, then the status of R41. R41 does not say what becomes of a panel
beyond the side's list, which a late take of a foldout panel can name after a rewind and an AMEND have cut the
list: that it writes no panel record, the number being consumed all the same, is the MODEL'S CHOICE (DESIGN
CHOICE, log 39). -/
def SideRec.accept (r : SideRec) (panel number check : Nat) : SideRec :=
  let r := { r with panels := r.panels.set (panel - 1) ⟨number, check⟩ }
  if r.status ≠ .exempt ∧ r.complete then { r with status := .captured } else r

/-- A rejection of a side with no retake following (R42). -/
def Vau.reject (v : Vau) (e : Nat) (side : Side) : Vau :=
  v.mapSide e side (fun r => { r with status := r.status.reject })

/-- A withhold of a side (R43). -/
def Vau.withhold (v : Vau) (e : Nat) (side : Side) : Vau :=
  v.mapSide e side (fun r => { r with status := r.status.withhold })

/-- The number given to an acceptance, 0 when they are exhausted, and the next one (R40): after
4,294,967,295 the counter holds 0. -/
def nextNumber (n : Nat) : Nat := if n = 0 then 0 else (n + 1) % 2 ^ 32

/-! ### What TSQ reports (R38) -/

/-- A failed attempt: the reading recorded, the turn attempts raised up to 15 (R38, R85). -/
def Vau.failedAttempt (v : Vau) (e : Nat) (reading : LiftReading) : Vau :=
  v.mapEntry e (fun x => { x with reading := reading, attempts := min 15 (x.attempts + 1) })

/-- The UNCERTAIN flag of an entry (R38, R49, R91). -/
def Vau.setUncertain (v : Vau) (e : Nat) (u : Bool) : Vau := v.mapEntry e (fun x => { x with uncertain := u })

end Sys2Proof.Machine
end

