-- ==== Sys2Proof/Machine/TurnOps.lean ====
section
/-! DEFINITION. The turn sequencer's shared operations (chapter 5): the begin and the end of each stage
of Figure 5-1, failed attempts, stalls, and the completions it answers. -/

namespace Sys2Proof.Machine

/-- The sequencer replaced. -/
def State.setTsq (s : State) (t : Tsq) : State := { s with tsq := t }

/-- The interlock signal follows the arm and platen in the event of each change (R80): a fall while a
strobe is lit waits at the LDU for its INTERLOCK_FALL (R120). `before` is the signal before the event. -/
def State.settle (s : State) (before : Bool) : State :=
  if before && !s.tsq.ready && s.ldu.state == .lit then { s with ldu := { s.ldu with fall := true } } else s

/-- No work in flight, every watch of the work stopped (R11, R77). -/
def Tsq.endWork (t : Tsq) : Tsq :=
  { t with work := .none, stage := none, retryWatch := none, stageWatch := none, cutWatch := none }

/-- A turn answered: no work in flight, the completion sent to OCC (R74). -/
def State.answerTurn (s : State) (r : TurnReply) : State := (s.setTsq s.tsq.endWork).toOcc (.turn r)

/-- Entry r of the turn in flight, the leaf it lifts (R47, R81); 0 where none is in flight (DESIGN CHOICE, log
47). -/
def Tsq.lifted (t : Tsq) : Nat :=
  match t.work with
  | .turn _ r => r
  | _ => 0

/-- The turn is answered STALL with its entry (R92 to R94). -/
def State.stallTurn (s : State) : State := s.answerTurn (.failed .stall s.tsq.lifted)

/-- A recorded failure as the reason of the turn's answer. -/
def TurnFailure.reason : TurnFailure → Reason
  | .liftFailed => .liftFailed
  | .doubleLift => .doubleLift

/-- The end of PLATEN_DOWN, with the platen DOWN or CONTACT: the platen request or the turn is answered,
TURNED when it has no recorded failure and no STOP turned it back (R87, R89, R90, R95). -/
def State.finishDown (s : State) : State :=
  match s.tsq.work with
  | .platen => (s.setTsq s.tsq.endWork).toOcc (.platen true)
  | .turn _ r =>
    if s.tsq.turnedBack then s.answerTurn .stopped
    else match s.tsq.failure with
      | some f => s.answerTurn (.failed f.reason r)
      | none => s.answerTurn (.turned r)
  | _ => s

/-- The platen arrives in PLATEN_DOWN: its drive and watch stop (R89). -/
def State.arriveDown (s : State) (p : Platen) : State :=
  (s.setTsq { s.tsq with platen := p, stageWatch := none }).finishDown

/-- PLATEN_DOWN begins; a closed down switch, else a pressure at the limit, ends it in the same event
(R89). R89 does not say which reading is "already at the limit" then: that it is the last one taken, also one
from before the stage, is the MODEL'S CHOICE (DESIGN CHOICE, log 42). -/
def State.beginPlatenDown (s : State) : State :=
  let s' := s.setTsq { s.tsq with
    stage := some .platenDown, platen := .moving, stageWatch := some s.profile.platenClass }
  if s.tsq.downSw then s'.arriveDown .down
  else if s.profile.pressureLimit ≤ s.tsq.pressure then s'.arriveDown .contact
  else s'

/-- REACH begins: the arm leaves park (R82). -/
def Tsq.beginReach (t : Tsq) (p : Profile) : Tsq :=
  { t with arm := .moving, stage := some .reach, stageWatch := some p.armClass }

/-- PLATEN_UP begins; a platen already UP with its up switch closed ends it in the same event (R81). -/
def Tsq.beginPlatenUp (t : Tsq) (p : Profile) : Tsq :=
  if t.platen = .up ∧ t.upSw then t.beginReach p
  else { t with stage := some .platenUp, platen := .moving, stageWatch := some p.platenClass }

/-- SEPARATE begins: one more attempt, the level of R83, and at the first one the retry window (R82). -/
def Tsq.beginSeparate (t : Tsq) (p : Profile) (knife : Nat) : Tsq :=
  { t with
    stage := some .separate
    stageWatch := none
    retryWatch := if t.attempts = 0 then some p.retryClass else t.retryWatch
    attempts := t.attempts + 1
    level := min 7 (knife + t.heavy) }

/-- LIFT begins: the vacuum ON and the foot raised (R84). -/
def Tsq.beginLift (t : Tsq) (p : Profile) : Tsq :=
  { t with stage := some .lift, vacuum := .on, foot := .raised, stageWatch := some p.liftClass }

/-- RELEASE begins: the vacuum OFF and the foot lowered (R85). -/
def Tsq.beginRelease (t : Tsq) (p : Profile) : Tsq :=
  { t with stage := some .release, vacuum := .off, foot := .lowered, stageWatch := some p.liftClass }

/-- SWEEP begins, the retry window stopped (R85, R88). -/
def Tsq.beginSweep (t : Tsq) (p : Profile) : Tsq :=
  { t with stage := some .sweep, retryWatch := none, stageWatch := some p.armClass }

/-- SET_DOWN begins: the vacuum OFF (R88). -/
def Tsq.beginSetDown (t : Tsq) (p : Profile) : Tsq :=
  { t with stage := some .setDown, vacuum := .off, stageWatch := some p.liftClass }

/-- RETURN begins: the arm drives to park (R87, R88; log 16). -/
def Tsq.beginReturn (t : Tsq) (p : Profile) : Tsq :=
  { t with stage := some .goHome, stageWatch := some p.armClass }

/-- The air-knife base level of the leaf being lifted (R81, R83). -/
def State.baseKnife (s : State) (entry : Nat) : Nat := (s.profile.kind (planAt s.vau.plan entry).kind).knife

/-- A failed attempt on entry r: VAU records the reading, the heavy readings and the retry decision
follow, and RELEASE begins (R38, R85, R86). -/
def State.failAttempt (s : State) (r : Nat) (reading : LiftReading) : State :=
  let t := s.tsq
  let retry := !t.windowClosed && t.attempts < s.profile.attemptLimit
  let failure := if retry then t.failure
    else some (if reading = LiftReading.none then TurnFailure.liftFailed else .doubleLift)
  let t := { t with heavy := if reading = LiftReading.none then t.heavy else t.heavy + 1, failure := failure }
  (s.setTsq (t.beginRelease s.profile)).changeAccount (fun v => v.failedAttempt r reading)

/-- The arm stops HELD, drive off and brake on, and NOTE.ARM is raised (R93, R94, R96). -/
def State.holdArm (s : State) : State := (s.setTsq { s.tsq with arm := .held }).raise .arm

/-- Arm drive power is cut: DEAD, the relay open, NOTE.ARM raised (R93, R94). -/
def State.cutArm (s : State) : State := (s.setTsq { s.tsq with arm := .dead, relayOpen := true }).raise .arm

/-- A retract begins, with the cut-delay watch under RETRACT_CUT (R94). -/
def Tsq.beginRetract (t : Tsq) (p : Profile) (cut : Bool) : Tsq :=
  { t with stage := some .retract, stageWatch := some p.armClass,
           cutWatch := if cut then some (cutDelay p.cutCode) else none }

/-- An arm stall: the stall action of the profile in force (R92 to R94). -/
def State.armStall (s : State) : State :=
  match s.profile.stallAction with
  | .unset | .hold => s.holdArm.stallTurn
  | .cut => s.cutArm.stallTurn
  | .retract => s.setTsq (s.tsq.beginRetract s.profile false)
  | .retractCut => s.setTsq (s.tsq.beginRetract s.profile true)

/-- A platen stall: the drive stops, the platen is UNKNOWN, and the turn or request is answered STALL
(R92). -/
def State.platenStall (s : State) : State :=
  let s := s.setTsq { s.tsq with platen := .unknown }
  match s.tsq.work with
  | .platen => (s.setTsq s.tsq.endWork).toOcc (.platen false)
  | _ => s.stallTurn

/-- Bank lit falls: a turn that waits for it begins PLATEN_UP in the same event (R81, R117). -/
def State.lampsOff (s : State) : State :=
  let s := { s with ldu := s.ldu.idle }
  if s.tsq.stage = some .waitDark then s.setTsq (s.tsq.beginPlatenUp s.profile) else s

end Sys2Proof.Machine
end

