-- ==== Sys2Proof/Machine/CycleOps.lean ====
section
/-! DEFINITION. The opening cycle controller's shared operations (chapter 4): the end of an order by
DONE, a pause or a STOP, the chain of an exposure's requests, and the capture phase. -/

namespace Sys2Proof.Machine

/-- OCC replaced. -/
def State.setOcc (s : State) (o : Occ) : State := { s with occ := o }

/-- A side with which the retake list, the withhold and the RETAKE order deal: its page. -/
def Vau.visibleSide (v : Vau) (e : Nat) (side : Side) : Bool := v.pageEntry side.chan == e

/-! ### Reservations -/

/-- The reservations held and not armed go back to FREE through FBK in the same event (R72, R75, R150; log 13). -/
def State.releaseHeldOf (s : State) (c : Chan) : State :=
  match s.occ.held.get c with
  | some r => (s.setOcc { s.occ with held := s.occ.held.set c none }).releaseDesc c r.bank r.index
  | none => s

/-- Every reservation held goes back to FREE (R72). -/
def State.releaseHeld (s : State) : State := (s.releaseHeldOf .left).releaseHeldOf .right

/-- OCC asks FBK to release the reservation of a channel and goes on: the request is FBK's next
RELEASE_REQUEST on that channel, and its DONE is awaited by a stopped order alone (R65, R76, R147). -/
def State.askRelease (s : State) (c : Chan) : State :=
  match s.occ.held.get c with
  | some r =>
    (s.setOcc { s.occ with
      held := s.occ.held.set c none
      releasing := s.occ.releasing.insert c }).toFbk c (.release r.bank r.index)
  | none => s

/-! ### The end of an order -/

/-- The retake list abandoned: each listed side is a rejection with no retake following (R68). -/
def State.abandonRetakes (s : State) : State :=
  let items := s.occ.retakes
  (s.changeAccount (fun v => items.foldl (fun v i => v.reject i.leaf i.side) v)).setOcc
    { s.occ with retakes := [] }

/-- OCC holds no order, no wait, no awaited judgement and no pending pause (R57, R72, R73, R76). -/
def Occ.clearOrder (o : Occ) : Occ :=
  { o with order := none, pendingPause := none, roomWatch := none, work := .none, todo := [],
           awaiting := .empty, stops := [], outcome := none }

/-- DONE to every STOP being carried out (R76). -/
def State.answerStops (s : State) : State := s.occ.stops.foldl (fun s i => s.answer i .done) s

/-- Turns made and takes made, as every answer of a cycle order carries them (Table 11-4). -/
def Occ.counts (o : Occ) : List FieldVal := [⟨70, 2, o.turnsMade⟩, ⟨72, 2, o.takesMade⟩]

/-- The order in flight ends: its answer, DONE to the STOPs, OCC without an order, and the volume state
entered (R59, R60, R72, R76). -/
def State.endOrder (s : State) (code : AnswerCode) (fields : List FieldVal) (v : VolState) : State :=
  match s.occ.order with
  | none => s
  | some o =>
    let s := (s.answer o.slot code fields).answerStops
    (s.setOcc s.occ.clearOrder).enterRest v

/-- A cycle order answered DONE, with the fields of its own answer besides the counts. -/
def State.endDone (s : State) (extra : List FieldVal := []) : State :=
  s.endOrder .done (s.occ.counts ++ extra) .ready

/-- A stopped order holds no other request: it ends STOPPED and its STOPs are answered DONE, once FBK has
answered every release it was asked for (R76, R147). A room watch is stopped at once with the wait that the
STOP abandons (R11, R75). -/
def State.endStopped (s : State) : State :=
  let s := s.releaseHeld
  if s.occ.releasing.isEmpty then s.endOrder .stopped s.occ.counts .ready
  else s.setOcc { s.occ with work := .releasing, roomWatch := none }

/-- The hand-step reasons, which leave the volume in HAND_WAIT (R72). -/
def Reason.handStep : Reason → Bool
  | .liftFailed | .doubleLift | .leafDropped | .stall => true
  | .foldoutUnfold | .foldoutPanel | .foldoutRefold => true
  | .doseLimit | .noRoom | .lampFault | .cameraFault | .armNotReady => false

/-- The fields a PAUSED answer carries besides the counts (R72, R100, R112, Table 11-4). -/
def State.pauseFields (s : State) (reason : Reason) (entry bound : Nat) : List FieldVal :=
  [⟨69, 1, reason.code⟩]
    ++ (if reason.handStep then [⟨74, 2, entry⟩] else [])
    ++ (if reason = .lampFault then [⟨76, 1, s.ldu.retired.toNat⟩] else [])
    ++ (if reason = .doseLimit then [⟨77, 1, bound⟩] else [])

/-- A pause (R72): the reservations released, the retake list abandoned, the order answered PAUSED, and
the volume READY, or HAND_WAIT with the pending hand step, its entry concerned, and NOTE.HAND (R47). -/
def State.pauseAt (s : State) (reason : Reason) (entry : Nat) (bound : Nat := 0) : State :=
  let s := s.releaseHeld.abandonRetakes
  let fields := s.occ.counts ++ s.pauseFields reason entry bound
  if reason.handStep then
    ({ s with vau := { s.vau with step := some ⟨reason, entry⟩ } }.raise .hand).endOrder .paused fields .handWait
  else s.endOrder .paused fields .ready

/-- A pause that no turn caused: the entry concerned is the next physical entry after the cursor, the FOLDOUT of
the RIGHT page for a foldout reason (R47). -/
def State.pause (s : State) (reason : Reason) (bound : Nat := 0) : State := s.pauseAt reason s.vau.rightEntry bound

/-- The reason of a pending pause. -/
def PendingPause.reason : PendingPause → Reason
  | .lampFault => .lampFault
  | .cameraFault => .cameraFault

/-! ### Turns -/

/-- OCC asks for a turn, after taking a pending CAMERA_FAULT (R74). -/
def State.requestTurn (s : State) : State :=
  if s.occ.pendingPause = some .cameraFault then s.pause .cameraFault
  else (s.setOcc { s.occ with work := .turning }).toTsq (.turn s.vau.cursor)

/-! ### The chain of an exposure -/

/-- The sides of an exposure that are still targets; none is dropped of an exposure that is kept (R63). -/
def State.stillWanted (s : State) (x : Exposure) : Exposure :=
  if x.keep then x
  else { x with sides := ⟨x.sides.left && s.vau.isTarget .left, x.sides.right && s.vau.isTarget .right⟩ }

/-- A channel of the exposure is FAULTED (R73). -/
def State.anyFaulted (s : State) (x : Exposure) : Bool :=
  (x.sides.left && s.cch.left.state == .faulted) || (x.sides.right && s.cch.right.state == .faulted)

/-- A channel of the exposure holds a take outstanding: ARMED, EXPOSED or RECEIVING (R63). -/
def State.mustWait (s : State) (x : Exposure) : Bool :=
  (x.sides.left && s.cch.left.state.outstanding) || (x.sides.right && s.cch.right.state.outstanding)

/-- OCC asks FBK for a reservation on a channel (R64). -/
def State.reserveOn (s : State) (x : Exposure) (c : Chan) : State :=
  (s.setOcc { s.occ with work := .reserving x c }).toFbk c .reserve

/-- OCC asks the LDU for the admission of an exposure whose reservations are held (R65). -/
def State.askAdmission (s : State) (x : Exposure) : State :=
  (s.setOcc { s.occ with work := .admitting x }).toLdu (.request x.sides x.cls)

/-- The end of a capture phase: a pending pause, then what the order or the foldout sequence asks for
(R59, R60, R61, R69, R71, R73; logs 14, 32). -/
def State.phaseEnd (s : State) : State :=
  match s.occ.order with
  | none => s
  | some o =>
    match o.kind, s.occ.pendingPause with
    | .retake .., p =>
      match p, s.occ.outcome with
      | some r, some code => if code = withheldCode then s.endDone [⟨78, 1, code⟩] else s.pause r.reason
      | some r, none => s.pause r.reason
      | none, code => s.endDone [⟨78, 1, code.getD 0⟩]
    | _, some p => s.pause p.reason
    | kind, none =>
      if s.vau.unfolded then
        if s.vau.nextPanel < (s.vau.sideRec s.vau.rightEntry .recto).panels.length
        then s.pause .foldoutPanel else s.pause .foldoutRefold
      else
        match kind with
        | .advance n =>
          if s.vau.atLastOpening then
            (s.raise .volumeEnd).endDone [⟨68, 1, bit (s.occ.turnsMade < n)⟩]
          else if s.occ.turnsLeft = 0 then s.endDone
          else s.requestTurn
        | _ => s.endDone

/-- The exposures of the phase from the next one on (R63): a pending CAMERA_FAULT or a FAULTED channel
pauses, an outstanding take is waited for, an exposure that has lost its sides is passed over, and
otherwise the first reservation is asked. An empty list ends the phase. -/
def State.runTodo (s : State) : List Exposure → State
  | [] => (s.setOcc { s.occ with work := .none, todo := [] }).phaseEnd
  | x :: rest =>
    if s.occ.pendingPause = some .cameraFault || s.anyFaulted x then s.pause .cameraFault
    else if s.mustWait x then s.setOcc { s.occ with work := .channelWait x, todo := rest }
    else
      let y := s.stillWanted x
      if y.sides.isEmpty then s.runTodo rest
      else (s.setOcc { s.occ with todo := rest }).reserveOn y (if y.sides.left then .left else .right)

/-- The exposure is one whose judgement OCC awaits (R67). -/
def State.awaits (s : State) (x : Exposure) : Bool :=
  s.profile.wait || x.panel ||
    match s.occ.order with
    | some ⟨_, .retake ..⟩ => true
    | _ => false

/-- The sides of the retake list as an exposure, without those that a split half in `todo` still takes
(R65, R68; log 20). -/
def Occ.retakeSides (o : Occ) : ChanSet :=
  let listed (side : Side) := o.retakes.any (fun i => i.side == side)
  let planned (c : Chan) := o.todo.any (fun x => x.auto && ChanSet.has x.sides c)
  ⟨listed .verso && !planned .left, listed .recto && !planned .right⟩

/-- The phase goes on after a finished exposure: the automatic retakes that are listed, then the exposures
left (R63, R65, R68). -/
def State.goOn (s : State) (panel : Bool) : State :=
  let sides := s.occ.retakeSides
  if sides.isEmpty then s.runTodo s.occ.todo
  else s.runTodo (⟨sides, .retake, panel, true, true⟩ :: s.occ.todo)

/-- The phase goes on once every awaited judgement of the exposure has been taken (R67, R68). -/
def State.afterJudged (s : State) : State :=
  match s.occ.work with
  | .judging x => if s.occ.awaiting.isEmpty then s.goOn x.panel else s
  | _ => s

/-- The wait for a channel's take ends when neither channel of the exposure holds one any more (R63). -/
def State.pollWait (s : State) : State :=
  match s.occ.work with
  | .channelWait x => if s.mustWait x then s else s.runTodo (x :: s.occ.todo)
  | _ => s

/-- The exposures of a phase or a RETAKE order begin with the check of R62 (log 34). -/
def State.checkInterlock (s : State) (exposures : List Exposure) : State :=
  if s.tsq.arm ≠ .parked then s.pause .armNotReady
  else match s.tsq.platen with
    | .down | .contact => s.runTodo exposures
    | .up | .unknown | .moving =>
      (s.setOcc { s.occ with work := .platen, todo := exposures }).toTsq .platen

/-! ### The capture phase (R61, R69) -/

/-- The auto-retake counts of the two visible sides set to 0 (R61). -/
def Vau.resetCounts (v : Vau) (auto : List (Nat × Nat)) : List (Nat × Nat) :=
  (auto.modify v.cursor (fun p => (0, p.2))).modify v.rightEntry (fun p => (p.1, 0))

/-- A first exposure of class NORMAL (R61). -/
def normalExposure (left right : Bool) : Exposure := ⟨⟨left, right⟩, .normal, false, false, false⟩

/-- A single-side exposure of the RIGHT page for a foldout panel (R69). -/
def panelExposure : Exposure := ⟨⟨false, true⟩, .normal, true, false, true⟩

/-- The panel now in position already holds an accepted frame (R69). -/
def Vau.panelAccepted (v : Vau) : Bool :=
  ((v.sideRec v.rightEntry .recto).panels.getD (v.nextPanel - 1) ⟨0, 0⟩).number != 0

/-- What a capture phase does, by the first line of the table of R61 that applies: `none` to pause
FOLDOUT_UNFOLD, otherwise the exposures it makes. -/
def State.phasePlan (s : State) : Option (List Exposure) :=
  let v := s.vau
  let l := v.isTarget .left
  let r := v.isTarget .right
  if v.unfolded then some (if v.panelAccepted then [] else [panelExposure])
  else if v.rightIsFoldout && r && !s.occ.foldoutDone then none
  else if v.rightIsFoldout && s.occ.foldoutDone then some (if l then [normalExposure true false] else [])
  else if l || r then some [normalExposure l r]
  else some []

/-- The course of a capture phase (R61, R62). -/
def State.runPhase (s : State) : State :=
  match s.phasePlan with
  | none => s.pause .foldoutUnfold
  | some [] => s.runTodo []
  | some (x :: rest) => s.checkInterlock (x :: rest)

/-- A capture phase starts: the auto-retake counts of the two visible sides are 0 and the retake list is
empty, and its course is chosen (R61). -/
def State.startPhase (s : State) : State :=
  (s.setOcc { s.occ with auto := s.vau.resetCounts s.occ.auto, retakes := [] }).runPhase

/-! ### Taking a cycle order (R58) -/

/-- The answer of R58 in a volume state other than READY. -/
def cycleRefusal : VolState → Option AnswerCode
  | .noVolume => some .noVolume
  | .opening | .closing | .cycling => some .busy
  | .handWait => some .handWait
  | .ready => none

/-- A channel's report that it has become FAULTED (R137). -/
def OccMsg.reportsFaulted : OccMsg → Bool
  | .faulted _ => true
  | _ => false

/-- A cycle order accepted: it is in flight, nothing is made yet, the volume is CYCLING, and the FAULTED
channels it needs are cleared (R58, R138). A report of a FAULTED channel that OCC has not taken yet was
made before the order and has no effect on it (R137; log 46). -/
def State.accept (s : State) (slot : Fin 16) (kind : CycleKind) (needs : ChanSet) (turnsLeft : Nat) : State :=
  let clear (c : Chan) (x : Cch) : Cch := if needs.has c then x.clearFaulted else x
  { s with
    occ := { s.occ with
      order := some ⟨slot, kind⟩, turnsLeft := turnsLeft, turnsMade := 0, takesMade := 0,
      outcome := none, inbox := s.occ.inbox.filter (fun m => !m.reportsFaulted) }
    vau := { s.vau with vol := .cycling }
    cch := ⟨clear .left s.cch.left, clear .right s.cch.right⟩ }

/-! ### Judgements at OCC (R67, R68) -/

/-- The auto-retake count of a side (R57). -/
def Occ.autoCount (o : Occ) (e : Nat) : Side → Nat
  | .verso => (o.auto.getD e (0, 0)).1
  | .recto => (o.auto.getD e (0, 0)).2

/-- One more automatic retake of a side (R68). -/
def Occ.countAuto (o : Occ) (e : Nat) (side : Side) : Occ :=
  { o with auto := addDose o.auto e side 1 }

/-- OCC awaits this judgement: a STOP abandons every wait, and a judgement of an earlier take is late (R67,
R75). -/
def Occ.awaits (o : Occ) (j : Judgement) : Bool := o.awaiting.has j.chan && !j.late

/-- An automatic retake follows an awaited rejection (R68); the RETAKE order makes none (R71). -/
def State.retakeFollows (s : State) (j : Judgement) : Bool :=
  s.occ.awaits j
    && (match s.occ.order with | some ⟨_, .retake ..⟩ => false | _ => true)
    && s.occ.autoCount j.leaf j.side < s.profile.autoLimit
    && s.occ.pendingPause == none && !j.madeFaulted

/-- The STOP passes to the pieces of the order's work (R75). -/
def State.stopWork (s : State) : State :=
  match s.occ.work with
  | .none | .channelWait _ | .roomWait .. | .judging _ => s.endStopped
  | .platen | .turning => s.toTsq .stop
  | .admitting _ => s.releaseHeld.toLdu .abandon
  | .firing _ => s.toLdu .abort
  | .reserving .. | .arming .. | .cancelling | .releasing => s

end Sys2Proof.Machine
end

