-- ==== Sys2Proof/Machine/Cameras.lean ====
section
/-! DEFINITION. The camera channels' commands (chapter 7): arming (R126), the notice (R127, R128), frame
intake (R129 to R132), the result write (R135) and the frame watch (R136, R137). -/

namespace Sys2Proof.Machine

/-- An arm request taken in IDLE (R125, R126). -/
def State.arm (s : State) (c : Chan) (q : ArmReq) : State :=
  let x := s.cch.get c
  let id := x.takeId + 1
  let record : TakeRec := ⟨q.desc, q.leaf, q.side, q.panel, (planAt s.vau.plan q.leaf).tag, s.vau.key, none, none⟩
  let x := x.send (.arm id q.time q.leaf q.side q.panel x.syncPending)
  (s.setCch c { x with takeId := id, take := some record, syncPending := false, state := .armed }).toOcc
    (.armed c true)

/-- ARM_REQUEST: taken in IDLE, answered BUSY in any other state (R126). -/
def execArmRequest (c : Chan) (s : State) : StepOutcome :=
  .next (match (s.cch.get c).arms with
    | [] => s
    | q :: rest =>
      let s := s.setCch c { s.cch.get c with arms := rest }
      if (s.cch.get c).state = .idle then s.arm c q else s.toOcc (.armed c false))

/-- END_OF_EXPOSURE_NOTICE: in ARMED the notice is kept, the channel is EXPOSED and its frame watch runs
(R127); in any other state it is ignored (R128). -/
def execEndOfExposureNotice (c : Chan) (s : State) : StepOutcome :=
  .next (
    let x := s.cch.get c
    match x.notices with
    | [] => s
    | n :: rest =>
      let x := { x with notices := rest }
      if x.state = .armed then
        s.setCch c { x with
          take := x.take.map (fun t => { t with notice := some n })
          state := .exposed
          frameWatch := some s.profile.frameClass }
      else s.setCch c x)

/-- A FRAME header decided in BETWEEN, by the first line of the table of R129 that applies; the body length of a
frame that is taken goes into the take record. -/
def Cch.header (x : Cch) (id : BitVec 16) (length : Nat) : Cch :=
  if x.state = .exposed ∧ id = x.takeId then
    { x with state := .receiving, intake := .taking
             take := x.take.map (fun t => { t with bodyLen := some length })
             received := 0, written := 0, crc := crcStart }
  else if x.lastDone = some id then { x with intake := .discarding .repeatSeen id length 0 }
  else { x with intake := .discarding .spurned id length 0 }

/-- FRAME_HEADER: its start mark ends a frame in progress (R123; log 23), and the header is decided
(R129). -/
def execFrameHeader (c : Chan) (takeId : BitVec 16) (length : Word32) (s : State) : StepOutcome :=
  let s := s.startMark c
  .next (s.setCch c ((s.cch.get c).header takeId length.toNat))

/-- A body byte of the taken frame (R130). -/
def State.takeByte (s : State) (c : Chan) (b : Byte) : State :=
  let x := s.cch.get c
  let x' := { x with crc := crcByte x.crc b, received := x.received + 1 }
  match x.take with
  | some t =>
    if x.received < t.desc.cap then
      (s.setCch c { x' with written := x.written + 1 }).issue (.body c) (t.desc.addr + x.received) [b]
    else s.setCch c x'
  | none => s.setCch c x'

/-- BODY_BYTE: taken in TAKING (R130), counted off in DISCARDING (R132), discarded in BETWEEN (R123). A
byte after the last of the body is no body byte (R141; log 1). -/
def execBodyByte (c : Chan) (b : Byte) (s : State) : StepOutcome :=
  .next (
    let x := s.cch.get c
    match x.intake with
    | .taking => if x.received < x.bodyLength then s.takeByte c b else s
    | .discarding kind id length counted =>
      if counted < length then s.setCch c { x with intake := .discarding kind id length (counted + 1) }
      else s
    | .between => s)

/-- FRAME_TRAILER: after the full body it ends the taken frame, which is judged (R131), or answers a
discarded one (R132). Before the body is complete there is no trailer (R141; log 1). -/
def execFrameTrailer (c : Chan) (check : Word32) (s : State) : StepOutcome :=
  .next (
    let x := s.cch.get c
    match x.intake with
    | .taking => if x.received = x.bodyLength then s.endFrame c (crcFinal x.crc == check) else s
    | .discarding kind id length counted =>
      if counted = length then s.setCch c ({ x with intake := .between }.send (.answer kind id)) else s
    | .between => s)

/-- START_MARK: a frame in progress ends short (R131, R132). -/
def execStartMark (c : Chan) (s : State) : StepOutcome := .next (s.startMark c)

/-- STRAY_BYTES: bytes in BETWEEN without a start mark are discarded without answer (R123). -/
def execStrayBytes (_c : Chan) (_bytes : List Byte) (s : State) : StepOutcome := .next s

/-- RESULT_WRITE_COMPLETE: after the body writes of the frame the result write completes; the descriptor
is reported FILLED, the take record is cleared with the body length in it, the channel is IDLE, and TAKEN is
sent, but for a CUT judged at its watch (R135, R136). OCC's wait for the channel may end (R63). The intake counts
and the CRC keep their values with no take left (DESIGN CHOICE, log 35). -/
def execResultWriteComplete (c : Chan) (s : State) : StepOutcome :=
  .next (
    let x := s.cch.get c
    match x.result, x.take with
    | some j, some t =>
      if j.awaitsNumber || !s.hasInFlight (.result c) then s
      else
        let s := (s.land (fun w => w.writer == .body c || w.writer == .result c)).toFbk c
          (.filled t.desc.bank t.desc.index)
        let x := { x with take := none, result := none, state := .idle }
        (s.setCch c (if j.sendAnswer then x.send (.answer .taken x.takeId) else x)).pollWait
    | _, _ => s)

/-- A take judged LOST at its watch (R136, R137; log 24): the descriptor FREE, the bytes already written left in
the buffer (R130; log 5), the take record cleared with the body length in it, the channel IDLE, or FAULTED with a
report to OCC at the second LOST in a row. The intake counts and the CRC keep their values (DESIGN CHOICE, log
35). -/
def State.loseTake (s : State) (c : Chan) (t : TakeRec) : State :=
  let x := s.cch.get c
  let lost := x.lost + 1
  let faulted := decide (2 ≤ lost)
  let x := { x.ageSlots with
    intake := x.abandonFrame, frameWatch := none, take := none, lost := lost
    state := if faulted then .faulted else .idle }
  let s := (((s.landBody c).setCch c x).report (t.judgement c .lost 0 faulted)).releaseDesc
    c t.desc.bank t.desc.index
  if faulted then s.toOcc (.faulted c) else s

/-- A take judged CUT at its watch (R136): its descriptor is consumed with filled length 0 and check
value 0. -/
def State.cutTake (s : State) (c : Chan) (t : TakeRec) : State :=
  let x := s.cch.get c
  let r := x.resultOf t s.profile .cut 0 0
  let x := { x.ageSlots with
    intake := x.abandonFrame, frameWatch := none, state := .receiving, result := some ⟨r, false, false⟩ }
  ((s.setCch c x).report (t.judgement c .cut 0 false)).issueResult c t.desc r

/-- FRAME_WATCH_EXPIRY: the take is judged LOST or CUT by its notice (R136). A LOST take leaves its channel with
none outstanding, so that OCC's wait for it may end (R63). -/
def execFrameWatchExpiry (c : Chan) (s : State) : StepOutcome :=
  .next (
    let x := s.cch.get c
    match x.take with
    | some t =>
      if x.frameWatch.mayExpire then
        (if t.noticeOf.kind = .cut then s.cutTake c t else s.loseTake c t).pollWait
      else s
    | none => s)

end Sys2Proof.Machine
end

