-- ==== Sys2Proof/Machine/Cycle.lean ====
section
/-! DEFINITION. The opening cycle controller's commands (chapter 4): the cycle orders and STOP, and the
answers, reports and judgements it takes. An answer that OCC did not ask for in its present work is taken
and changes nothing else (log 17). -/

namespace Sys2Proof.Machine

/-- A STOP is being carried out (R75). -/
def Occ.stopping (o : Occ) : Bool := !o.stops.isEmpty

/-- OCC's work replaced. -/
def State.setWork (s : State) (w : Work) : State := s.setOcc { s.occ with work := w }

/-! ### Cycle orders (R58 to R60, R71) -/

/-- The decision of R58 on a cycle order: its refusal, or what its own rule does in READY. -/
def State.cycleOrder (s : State) (slot : Fin 16) (ready : State → State) : State :=
  match cycleRefusal s.vau.vol with
  | some code => s.answer slot code
  | none => ready s

/-- ADVANCE: accepted in READY with n turns remaining, and its first capture phase starts (R59). -/
def execAdvance (s : State) : StepOutcome :=
  .next (match s.nextOrder .occ with
    | some (⟨i, .advance n⟩, s) =>
      s.cycleOrder i (fun s => (s.accept i (.advance n) .both n).startPhase)
    | _ => s)

/-- CAPTURE: accepted in READY; one capture phase (R60). -/
def execCapture (s : State) : StepOutcome :=
  .next (match s.nextOrder .occ with
    | some (⟨i, .capture⟩, s) => s.cycleOrder i (fun s => (s.accept i .capture .both 0).startPhase)
    | _ => s)

/-- TURN in READY: refused at the last opening, paused with the foldout UNFOLDED, and otherwise one turn
is requested (R60). -/
def State.turnOrder (s : State) (i : Fin 16) : State :=
  if s.vau.atLastOpening then s.answer i .endOfVolume
  else
    let s := s.accept i .turn .empty 0
    if s.vau.unfolded then s.pause .foldoutRefold else s.requestTurn

/-- TURN (R60). -/
def execTurn (s : State) : StepOutcome :=
  .next (match s.nextOrder .occ with
    | some (⟨i, .turn⟩, s) => s.cycleOrder i (fun s => s.turnOrder i)
    | _ => s)

/-- The named panel of a foldout recto is not in position (R71, step 2). -/
def Vau.folded (v : Vau) (side : Side) (panel : Nat) : Bool :=
  side == .recto && v.rightIsFoldout && !(v.unfolded && v.nextPanel == panel)

/-- The single-side exposure of a RETAKE order (R71). -/
def retakeExposure (side : Side) : Exposure := ⟨.only side.chan, .retake, false, false, true⟩

/-- RETAKE in READY against the opening (R71). -/
def State.retakeOrder (s : State) (i : Fin 16) (e : Nat) (side : Side) (panel : Nat) : State :=
  if !s.vau.visibleSide e side || (s.vau.sideRec e side).panels.length < panel then
    s.answer i .notAtOpening
  else if s.vau.folded side panel then s.answer i .foldedSide
  else (s.accept i (.retake e side panel) (.only side.chan) 0).checkInterlock [retakeExposure side]

/-- RETAKE (R71). -/
def execRetake (s : State) : StepOutcome :=
  .next (match s.nextOrder .occ with
    | some (⟨i, .retake e side panel⟩, s) =>
      s.cycleOrder i (fun s => s.retakeOrder i e side panel)
    | _ => s)

/-! ### STOP (R75) -/

/-- A STOP with no cycle order in flight (R75). -/
def stopAnswer : VolState → AnswerCode
  | .noVolume | .ready => .done
  | .handWait => .handWait
  | .opening | .closing | .cycling => .busy

/-- A STOP against OCC's state (R75): a second STOP joins the first. -/
def State.stopOrder (s : State) (i : Fin 16) : State :=
  match s.occ.order with
  | none => s.answer i (stopAnswer s.vau.vol)
  | some _ =>
    if s.occ.stopping then s.setOcc { s.occ with stops := s.occ.stops ++ [i] }
    else (s.setOcc { s.occ with stops := [i], awaiting := .empty }).abandonRetakes.stopWork

/-- STOP (R75). -/
def execStop (s : State) : StepOutcome :=
  .next (match s.nextOrder .occ with
    | some (⟨i, .stop⟩, s) => s.stopOrder i
    | _ => s)

/-! ### Reservations and the room wait (R64) -/

/-- A reservation answered with a descriptor: the next channel is asked, or admission (R64, R65); a
FAULTED channel pauses (R73), and a stopped order ends (R75). -/
def State.reserved (s : State) (x : Exposure) (c : Chan) (r : Reservation) : State :=
  let s := s.setOcc { s.occ with held := s.occ.held.set c (some r) }
  if s.occ.stopping then s.endStopped
  else if c = .left ∧ x.sides.right then
    if s.cch.right.state = .faulted then s.pause .cameraFault else s.reserveOn x .right
  else s.askAdmission x

/-- A reservation answered NO_ROOM: the room wait begins (R64). -/
def State.noRoom (s : State) (x : Exposure) (c : Chan) : State :=
  if s.occ.stopping then s.endStopped
  else s.setOcc { s.occ with roomWatch := some s.profile.roomClass, work := .roomWait x c }

/-- FBK's DONE to a release; a stopped order that waits for it alone ends (R76, R147). -/
def State.released (s : State) (c : Chan) : State :=
  let s := s.setOcc { s.occ with releasing := s.occ.releasing.erase c }
  if s.occ.work = .releasing then s.endStopped else s

/-- RESERVATION_ANSWER: the frame bank manager's answer for a channel, to a reservation (R64) or to a
release (R147). -/
def execReservationAnswer (c : Chan) (s : State) : StepOutcome :=
  .next (match s.nextMsg (.fbk c) with
    | some (.reserved _ r, s') =>
      match s'.occ.work with
      | .reserving x c' => if c' = c then s'.reserved x c r else s'
      | _ => s'
    | some (.noRoom _, s') =>
      match s'.occ.work with
      | .reserving x c' => if c' = c then s'.noRoom x c else s'
      | _ => s'
    | some (.reserveBusy _, s') => s'
    | some (.released _, s') => s'.released c
    | _ => s)

/-- GRANT_REPORT: a GRANT of a bank of the channel OCC waits for ends the wait, and the reservation is
asked again (R64, R144). -/
def execGrantReport (c : Chan) (s : State) : StepOutcome :=
  .next (match s.nextMsg (.fbk c) with
    | some (.granted _, s') =>
      match s'.occ.work with
      | .roomWait x c' =>
        if c' = c then
          if (s'.cch.get c).state = .faulted then s'.pause .cameraFault
          else (s'.setOcc { s'.occ with roomWatch := none }).reserveOn x c
        else s'
      | _ => s'
    | _ => s)

/-- ROOM_WATCH_EXPIRY: the order pauses NO_ROOM (R64). -/
def execRoomWatchExpiry (s : State) : StepOutcome :=
  .next (match s.occ.work with
    | .roomWait _ _ => if s.occ.roomWatch.mayExpire then s.pause .noRoom else s
    | _ => s)

/-! ### Admission and arming (R65, R66) -/

/-- The panel of an arm request: the next panel for a FOLDOUT recto, 1 otherwise (R66). -/
def Vau.armPanel (v : Vau) : Chan → Nat
  | .left => 1
  | .right => if v.rightIsFoldout then v.nextPanel else 1

/-- The arm request to one channel of the exposure, which takes over its reservation (R66). -/
def State.sendArm (s : State) (c : Chan) (time : Nat) : State :=
  match s.occ.held.get c with
  | none => s
  | some r =>
    let x := s.cch.get c
    let req : ArmReq := ⟨r, time, s.vau.pageEntry c, pageSide c, s.vau.armPanel c⟩
    (s.setCch c { x with arms := x.arms ++ [req] }).setOcc { s.occ with held := s.occ.held.set c none }

/-- OCC asks each channel of an admitted exposure to arm (R66). -/
def State.askArms (s : State) (x : Exposure) (time : Nat) : State :=
  let s := s.setWork (.arming x .empty .empty)
  let s := if x.sides.left then s.sendArm .left time else s
  if x.sides.right then s.sendArm .right time else s

/-- One half of a split exposure (R65). -/
def Exposure.half (x : Exposure) (c : Chan) : Exposure := { x with sides := .only c }

/-- A withhold of the side requested (R43, R65): its automatic retake leaves the retake list (R68), and a
RETAKE order has its outcome (R71). -/
def State.applyWithhold (s : State) (x : Exposure) (c : Chan) : State :=
  let s := s.changeAccount (fun v => v.withhold (v.pageEntry c) (pageSide c))
  let outcome := match s.occ.order with
    | some ⟨_, .retake ..⟩ => some withheldCode
    | _ => s.occ.outcome
  s.setOcc { s.occ with
    outcome := outcome
    retakes := if x.auto then s.occ.retakes.filter (fun i => i.side != pageSide c) else s.occ.retakes }

/-- OCC takes the answer to its admission request (R65); after a STOP it waits for what its abandon still
has to answer (R75, R118; log 18). -/
def State.admissionAnswer (s : State) (x : Exposure) : AdmissionReply → State
  | .admitted time _ =>
    if s.occ.stopping then s.setWork .cancelling else s.askArms x time
  | .split =>
    if s.occ.stopping then s.setWork .cancelling
    else ((s.askRelease .left).askRelease .right).runTodo
      (x.half .left :: x.half .right :: s.occ.todo)
  | .withheld c _ =>
    let s := s.applyWithhold x c
    if s.occ.stopping then s.setWork .cancelling
    else (s.askRelease c).goOn x.panel
  | .doseLimit _ bound =>
    if s.occ.stopping then s.setWork .cancelling else s.pause .doseLimit bound.code
  | .abandoned => s.endStopped
  | .busy => s

/-- ADMISSION_ANSWER (R65). -/
def execAdmissionAnswer (s : State) : StepOutcome :=
  .next (match s.nextMsg .ldu with
    | some (.admission a, s') =>
      match s'.occ.work with
      | .admitting x => s'.admissionAnswer x a
      | _ => s'
    | _ => s)

/-- The judgements of a channel reported before its next take is exposed: each of them is late (R67; log 12). -/
def Judgement.passed (sides : ChanSet) (j : Judgement) : Judgement := { j with late := j.late || sides.has j.chan }

/-- OCC asks the LDU to fire; the judgements it will await are noted, and those still to be taken of an earlier
take on a channel of the exposure are late (R66, R67; logs 12, 22). -/
def State.askFire (s : State) (x : Exposure) : State :=
  let s := { s with vau := { s.vau with judgements := s.vau.judgements.map (Judgement.passed x.sides) } }
  (s.setOcc { s.occ with
    work := .firing x, awaiting := if s.awaits x then x.sides else .empty }).toLdu .fire

/-- When every channel of the exposure has answered, OCC asks to fire, or, stopped, cancels the exposure
(R66, R75). -/
def State.afterArmed (s : State) (x : Exposure) (answered armed : ChanSet) : State :=
  if answered = x.sides then
    if s.occ.stopping then (s.setWork .cancelling).toLdu (.cancel armed)
    else if armed = x.sides then s.askFire x
    else s
  else s

/-- A channel answers armed: the take is counted and its side leaves the retake list (R66, R68), and the
exposure goes on when every channel has answered. -/
def State.armedAnswer (s : State) (x : Exposure) (answered armed : ChanSet) (c : Chan) (ok : Bool) : State :=
  let answered := answered.insert c
  let armed := if ok then armed.insert c else armed
  (s.setOcc { s.occ with
    work := .arming x answered armed
    takesMade := if ok then s.occ.takesMade + 1 else s.occ.takesMade
    retakes := if x.auto && ok then s.occ.retakes.filter (fun i => i.side != pageSide c)
      else s.occ.retakes }).afterArmed x answered armed

/-- ARMED_ANSWER (R66). -/
def execArmedAnswer (c : Chan) (s : State) : StepOutcome :=
  .next (match s.nextMsg (.cch c) with
    | some (.armed _ ok, s') =>
      match s'.occ.work with
      | .arming x answered armed => s'.armedAnswer x answered armed c ok
      | _ => s'
    | _ => s)

/-! ### The fire request's outcome (R66, R67, R76) -/

/-- OCC takes the outcome of its fire request (R66): at the strobe end it takes a pending CAMERA_FAULT,
awaits the judgements, or goes on with the phase (R67, R73; logs 19, 37). -/
def State.fireAnswer (s : State) (x : Exposure) : FireReply → State
  | .strobeEnd =>
    if s.occ.stopping then s.setWork .cancelling
    else if s.occ.pendingPause = some .cameraFault then s.pause .cameraFault
    else if s.awaits x then (s.setWork (.judging x)).afterJudged
    else s.runTodo s.occ.todo
  | .notReady => if s.occ.stopping then s.setWork .cancelling else s.pause .armNotReady
  | .aborted => s.endStopped
  | .notAdmitted => s

/-- FIRE_ANSWER (R66). -/
def execFireAnswer (s : State) : StepOutcome :=
  .next (match s.nextMsg .ldu with
    | some (.fire a, s') =>
      match s'.occ.work with
      | .firing x => s'.fireAnswer x a
      | _ => s'
    | _ => s)

/-- CANCEL_ANSWER: the LDU's DONE to a cancel, an abandon or an abort ends the stopped order (R76, R118). -/
def execCancelAnswer (s : State) : StepOutcome :=
  .next (match s.nextMsg .ldu with
    | some (.done, s') => if s'.occ.work = .cancelling then s'.endStopped else s'
    | _ => s)

/-! ### The turn sequencer's answers (R62, R74, R76) -/

/-- PLATEN_COMPLETION: the exposures proceed, or the order pauses STALL (R62). -/
def execPlatenCompletion (s : State) : StepOutcome :=
  .next (match s.nextMsg .tsq with
    | some (.platen ok, s') =>
      if s'.occ.work = .platen then
        if !ok then s'.pause .stall
        else if s'.occ.stopping then s'.endStopped
        else s'.runTodo s'.occ.todo
      else s'
    | _ => s)

/-- A turn made: the cursor moves with skip marking, the turn is counted, and the order goes on (R59, R60,
R74), ends STOPPED (R76), or takes a pending CAMERA_FAULT (R73). -/
def State.turned (s : State) (r : Nat) : State :=
  let s := s.changeAccount (fun v => v.moveCursor r)
  let s := s.setOcc { s.occ with
    foldoutDone := false, work := .none
    turnsMade := s.occ.turnsMade + 1, turnsLeft := s.occ.turnsLeft - 1 }
  if s.occ.stopping then s.endStopped
  else if s.occ.pendingPause = some .cameraFault then s.pause .cameraFault
  else match s.occ.order with
    | some ⟨_, .advance _⟩ => s.startPhase
    | _ => s.endDone

/-- OCC takes the completion of its turn; the entry concerned of a failure is the leaf the turn was lifting, as the
completion carries it (R47, R74, R76; log 48). -/
def State.turnCompletion (s : State) : TurnReply → State
  | .turned r => s.turned r
  | .armNotReady => if s.occ.stopping then s.endStopped else s.pause .armNotReady
  | .failed reason entry => s.pauseAt reason entry
  | .stopped => s.endStopped

/-- TURN_COMPLETION (R74). -/
def execTurnCompletion (s : State) : StepOutcome :=
  .next (match s.nextMsg .tsq with
    | some (.turn a, s') => if s'.occ.work = .turning then s'.turnCompletion a else s'
    | _ => s)

/-! ### Faults (R73) -/

/-- LAMP_FAULT_REPORT: LAMP_FAULT becomes the pending pause of the order in flight, where none is pending
(R73). -/
def execLampFaultReport (s : State) : StepOutcome :=
  .next (match s.nextMsg .ldu with
    | some (.lampFault, s') =>
      if s'.occ.order.isSome && s'.occ.pendingPause.isNone
      then s'.setOcc { s'.occ with pendingPause := some .lampFault } else s'
    | _ => s)

/-- OCC waits for room, for a judgement, or for a channel's take (R73). -/
def Work.waiting : Work → Bool
  | .roomWait .. | .judging _ | .channelWait _ => true
  | _ => false

/-- A channel is FAULTED (R73): taken at once while OCC waits, recorded otherwise; a pending pause keeps
its reason. -/
def State.cameraFault (s : State) : State :=
  if s.occ.order.isNone || s.occ.pendingPause.isSome then s
  else if s.occ.work.waiting then s.pause .cameraFault
  else s.setOcc { s.occ with pendingPause := some .cameraFault }

/-- CAMERA_FAULT_REPORT (R73). -/
def execCameraFaultReport (c : Chan) (s : State) : StepOutcome :=
  .next (match s.nextMsg (.cch c) with
    | some (.faulted _, s') => s'.cameraFault
    | _ => s)

/-! ### Judgements (R39 to R42, R67, R68, R134, R135) -/

/-- The first judgement reported by a channel and not yet taken, and those left when it is taken. -/
def takeJudgement (c : Chan) : List Judgement → Option (Judgement × List Judgement)
  | [] => none
  | j :: rest =>
    if j.chan = c then some (j, rest) else (takeJudgement c rest).map (fun r => (r.1, j :: r.2))

/-- VAU returns the accepted-frame number to the channel, which then issues its result (R40, R135). -/
def State.numberResult (s : State) (c : Chan) (n : Nat) : State :=
  let x := s.cch.get c
  match x.result, x.take with
  | some j, some t =>
    if j.awaitsNumber then
      let r := { j.result with number := n }
      (s.setCch c { x with result := some { j with result := r, awaitsNumber := false } }).issueResult
        c t.desc r
    else s
  | _, _ => s

/-- VAU applies a judgement: the take counted, and the acceptance with its number or the rejection, with
OCC's retake decision (R39 to R42, R68). An ACCEPTED outcome ends the channel's run of LOST takes in the
same event, one given number 0 too (R134). -/
def State.applyJudgement (s : State) (j : Judgement) : State :=
  let count (v : Vau) := v.mapSide j.leaf j.side SideRec.countTake
  if j.outcome = .accepted then
    let n := s.vau.nextFrame
    if n = 0 then ((s.changeAccount (fun v => (count v).reject j.leaf j.side)).numberResult j.chan 0).clearLost j.chan
    else
      ((s.changeAccount (fun v =>
        { (count v).mapSide j.leaf j.side (fun r => r.accept j.panel n j.check)
          with nextFrame := nextNumber n })).numberResult j.chan n).clearLost j.chan
  else if s.retakeFollows j then
    let s := s.changeAccount count
    s.setOcc { s.occ.countAuto j.leaf j.side with
      retakes := s.occ.retakes ++ [⟨j.leaf, j.side, j.panel⟩] }
  else s.changeAccount (fun v => (count v).reject j.leaf j.side)

/-- OCC's part of a judgement it awaits: one judgement less, and the outcome of a RETAKE order (R67,
R71). -/
def Occ.judgementSeen (o : Occ) (j : Judgement) : Occ :=
  if o.awaits j then
    { o with
      awaiting := o.awaiting.erase j.chan
      outcome := match o.order with
        | some ⟨_, .retake ..⟩ => some j.outcome.code
        | _ => o.outcome }
  else o

/-- JUDGEMENT_TAKEN: VAU takes the first judgement that the channel reported, and OCC goes on where it
awaited it or waited for the channel (R63, R67, R134). -/
def execJudgementTaken (c : Chan) (s : State) : StepOutcome :=
  .next (match takeJudgement c s.vau.judgements with
    | none => s
    | some (j, rest) =>
      let s := ({ s with vau := { s.vau with judgements := rest } }).applyJudgement j
      (s.setOcc (s.occ.judgementSeen j)).afterJudged.pollWait)

end Sys2Proof.Machine
end

