-- ==== Sys2Proof/Machine/Operands.lean ====
section
/-! DEFINITION. Reading the records of the exchange area (chapter 11): the order slot with its form
check (R165), the table images with their validation (R13), the sheet, the ledger and the frame
descriptor. Every function takes the bytes read. -/

namespace Sys2Proof.Machine

/-! ### Order slots (R165, Tables 11-2 and 11-3) -/

/-- Every byte of the order part but the kind and the parameters named is 0 (R165). -/
def reservedZero (b : List Byte) (params : List Nat) : Bool :=
  (List.range 64).all (fun i => i == 0 || params.contains i || byteAt b i == 0)

/-- Codes of a side (Table 11-13). -/
def Side.ofCode : Nat → Option Side
  | 1 => some .verso
  | 2 => some .recto
  | _ => none

/-- A flag parameter passes with 0 or 1 alone (R165). -/
def flagOf : Nat → Option Bool
  | 0 => some false
  | 1 => some true
  | _ => none

/-- The parameter bytes of an order kind (Table 11-3); `none` for an unknown kind. -/
def orderParams : Nat → Option (List Nat)
  | 1 | 2 | 7 | 8 | 10 | 12 | 13 => some []
  | 3 => some [4, 5, 6]
  | 4 => some [4, 6, 7]
  | 5 | 11 => some [4]
  | 6 => some [4, 5]
  | 9 => some [4, 5, 6, 7]
  | _ => none

/-- The order of a known kind with its parameters, `none` where R165 finds one outside its encoding. -/
def orderOf (b : List Byte) : Option Order :=
  match byteAt b 0 with
  | 1 => some .loadTables
  | 2 => some .openVolume
  | 3 => some (.amend (leNat b 4 2) (byteAt b 6))
  | 4 => some (.handDone (byteAt b 4) (leNat b 6 2))
  | 5 => (flagOf (byteAt b 4)).map .closeVolume
  | 6 => let n := leNat b 4 2; if 1 ≤ n ∧ n ≤ 1024 then some (.advance n) else none
  | 7 => some .capture
  | 8 => some .turn
  | 9 =>
    let panel := byteAt b 7
    match Side.ofCode (byteAt b 6) with
    | some side => if 1 ≤ panel ∧ panel ≤ 8 then some (.retake (leNat b 4 2) side panel) else none
    | none => none
  | 10 => some .stop
  | 11 => (flagOf (byteAt b 4)).map .park
  | 12 => some .armRestore
  | 13 => some .readSideband
  | _ => none

/-- The order in a slot as read, or `none` for BAD_ORDER (R165). -/
def parseOrder (b : List Byte) : Option Order :=
  match orderParams (byteAt b 0) with
  | some params => if reservedZero b params then orderOf b else none
  | none => none

/-! ### Table images (R2, R4 to R9, R13, Tables 11-5 to 11-7) -/

/-- Offset of class entry i in the image read from 0800h. -/
def classAt (i : Nat) : Nat := 16 * i

/-- Offset of the cradle settings in the image read from 0800h. -/
def cradleAt : Nat := 256

/-- Offset of profile p in the image read from 0800h. -/
def profileAt (p : Nat) : Nat := 512 + 192 * p

/-- A class entry as read. -/
def parseClass (b : List Byte) (o : Nat) : ClassEntry where
  valid := byteAt b o == 1
  base := leNat b (o + 4) 4
  limit := leNat b (o + 8) 4
  profile := byteAt b (o + 1)

/-- Table 1-7, group Class. -/
def classPasses (b : List Byte) (o : Nat) : Bool :=
  match byteAt b o with
  | 0 => true
  | 1 => leNat b (o + 4) 4 ≤ leNat b (o + 8) 4 && byteAt b (o + 1) < 8
  | _ => false

/-- The parameters of kind number k as read. -/
def parseKind (b : List Byte) (o : Nat) : KindParams where
  cap := leNat b o 4
  levels := [byteAt b (o + 4), byteAt b (o + 5), byteAt b (o + 6), byteAt b (o + 7)]
  strobe := leNat b (o + 8) 4
  knife := byteAt b (o + 12)

/-- Dose modes by code (Table 11-13). -/
def DoseMode.ofCode : Nat → DoseMode
  | 1 => .withhold
  | 2 => .halt
  | _ => .unset

/-- Stall actions by code (Table 11-13). -/
def StallAction.ofCode : Nat → StallAction
  | 1 => .hold
  | 2 => .retract
  | 3 => .retractCut
  | 4 => .cut
  | _ => .unset

/-- A profile as read (Table 11-6). -/
def parseProfile (b : List Byte) (o : Nat) : Profile where
  board := parseKind b o
  text := parseKind b (o + 16)
  plate := parseKind b (o + 32)
  tissue := parseKind b (o + 48)
  foldout := parseKind b (o + 64)
  budget := leNat b (o + 80) 4
  tMin := leNat b (o + 84) 4
  reserve := byteAt b (o + 88)
  doseMode := .ofCode (byteAt b (o + 89))
  attemptLimit := byteAt b (o + 90)
  retryClass := byteAt b (o + 91) % 16
  platenClass := byteAt b (o + 91) / 16
  armClass := byteAt b (o + 92) % 16
  liftClass := byteAt b (o + 92) / 16
  frameClass := byteAt b (o + 93) % 16
  roomClass := byteAt b (o + 93) / 16
  stallAction := .ofCode (byteAt b (o + 94))
  cutCode := byteAt b (o + 95)
  pressureLimit := leNat b (o + 96) 2
  autoLimit := byteAt b (o + 98)
  wait := byteAt b (o + 99) == 1
  gate := byteAt b (o + 100)
  minFocus := leNat b (o + 102) 2

/-- A number lies in a range, both ends included (section 4.1). -/
def within (lo hi n : Nat) : Bool := lo ≤ n && n ≤ hi

/-- Table 1-7, one of the five kinds. -/
def kindPasses (k : KindParams) : Bool :=
  1 ≤ k.cap && within 100 200000 k.strobe && k.knife ≤ 7

/-- Table 1-7, group Profile. -/
def profilePasses (b : List Byte) (o : Nat) : Bool :=
  let p := parseProfile b o
  let kinds := [p.board, p.text, p.plate, p.tissue, p.foldout]
  kinds.all kindPasses
    && 1 ≤ p.budget && p.reserve ≤ 32 && within 100 200000 p.tMin
    && kinds.all (fun k => p.tMin ≤ k.strobe) && p.doseMode != .unset
    && within 1 15 p.attemptLimit && p.stallAction != .unset && p.cutCode ≤ 7
    && within 1 1023 p.pressureLimit
    && p.autoLimit ≤ 3 && byteAt b (o + 99) ≤ 1 && p.gate ≤ 4

/-- The four slot types and flags of a channel as read: types from `t`, flags from `f`. -/
def parseSlotConfig (b : List Byte) (t f : Nat) : SlotConfig where
  types := [byteAt b t, byteAt b (t + 1), byteAt b (t + 2), byteAt b (t + 3)]
  storeOnError := [byteAt b f == 1, byteAt b (f + 1) == 1, byteAt b (f + 2) == 1, byteAt b (f + 3) == 1]

/-- The cradle settings as read (Table 11-7). -/
def parseCradle (b : List Byte) (o : Nat) : Cradle where
  calibration := [leNat b o 2, leNat b (o + 2) 2, leNat b (o + 4) 2, leNat b (o + 6) 2]
  spill := byteAt b (o + 8)
  defaultEnable := byteAt b (o + 9) == 1
  defaultProfile := byteAt b (o + 10)
  slotConfig := ⟨parseSlotConfig b (o + 12) (o + 20), parseSlotConfig b (o + 16) (o + 24)⟩

/-- Table 1-7: slot k of the channel whose types lie from `t` and flags from `f`. -/
def slotPasses (b : List Byte) (t f k : Nat) : Bool :=
  let ty := byteAt b (t + k)
  ty ≤ 127 && byteAt b (f + k) ≤ 1
    && (ty == 0 || (List.range k).all (fun j => byteAt b (t + j) != ty))

/-- Table 1-7, group Cradle, by the cradle index of R13: 0 the default profile, 1 to 4 the slots of
CCH-L, 5 to 8 those of CCH-R. -/
def cradlePasses (b : List Byte) (o : Nat) (i : Nat) : Bool :=
  if i = 0 then byteAt b (o + 9) ≤ 1 && byteAt b (o + 10) < 8
  else if i ≤ 4 then slotPasses b (o + 12) (o + 20) (i - 1)
  else slotPasses b (o + 16) (o + 24) (i - 5)

/-- The three groups of tables by their code in a BAD_TABLE answer (Table 11-4). -/
inductive TableGroup where
  | cls
  | profile
  | cradle
deriving DecidableEq, Repr

/-- Table 11-4. -/
def TableGroup.code : TableGroup → Nat
  | .cls => 1
  | .profile => 2
  | .cradle => 3

/-- The first failure of a staging copy in the order of R13, with its index (R14). -/
def tableFailure (b : List Byte) : Option (TableGroup × Nat) :=
  match (List.range 16).find? (fun i => !classPasses b (classAt i)) with
  | some i => some (.cls, i)
  | none =>
    match (List.range 8).find? (fun p => !profilePasses b (profileAt p)) with
    | some p => some (.profile, p)
    | none =>
      match (List.range 9).find? (fun i => !cradlePasses b cradleAt i) with
      | some i => some (.cradle, i)
      | none => none

/-- The class table as read. -/
def parseClasses (b : List Byte) : List ClassEntry := (List.range 16).map (fun i => parseClass b (classAt i))

/-- The eight profiles as read. -/
def parseProfiles (b : List Byte) : List Profile := (List.range 8).map (fun p => parseProfile b (profileAt p))

/-! ### The sheet (R19, R20, R27, Table 11-8) -/

/-- The sheet header as read. -/
def parseHeader (b : List Byte) : SheetHeader where
  text := (List.range 32).map (fun i => b.getD i 0)
  key := leNat b 32 4
  part := byteAt b 36
  resume := byteAt b 37
  length := leNat b 38 2

/-- Step 1 of R27. -/
def lengthPasses (h : SheetHeader) : Bool := within 3 1024 h.length

/-- Step 2 of R27. -/
def resumePasses (h : SheetHeader) : Bool := h.resume ≤ 1

/-- Kinds by code (Table 11-13). -/
def Kind.ofCode : Nat → Option Kind
  | 1 => some .board
  | 2 => some .text
  | 3 => some .plate
  | 4 => some .tissue
  | 5 => some .foldout
  | 6 => some .lacuna
  | _ => none

/-- Plan entry e of n as read, `none` where step 3 of R27 fails. -/
def parsePlanEntry (b : List Byte) (n e : Nat) : Option PlanEntry :=
  let o := 16 * e
  let panels := byteAt b (o + 1)
  match Kind.ofCode (byteAt b o) with
  | none => none
  | some k =>
    let boardHere := e == 0 || e + 1 == n
    let panelsPass := if k = .foldout then within 2 8 panels else panels == 1
    if (k == .board) == boardHere && panelsPass then some ⟨k, panels, leNat b (o + 4) 4⟩ else none

/-- The plan of n entries as read, or the index of the first entry that fails step 3 of R27. -/
def parsePlan (b : List Byte) (n : Nat) : Except Nat (List PlanEntry) :=
  (List.range n).foldr
    (fun e rest =>
      match parsePlanEntry b n e, rest with
      | none, _ => .error e
      | some _, .error i => .error i
      | some p, .ok ps => .ok (p :: ps)) (.ok [])

/-- The collection key of a close record as read (Table 11-11, R30). -/
def closeKey (b : List Byte) : Nat := leNat b 32 4

/-! ### The ledger as read back (R30, R31, Tables 11-9 and 11-10) -/

/-- Side statuses by code (Table 11-13). -/
def Status.ofCode : Nat → Option Status
  | 1 => some .pending
  | 2 => some .captured
  | 3 => some .retakeDue
  | 4 => some .withheld
  | 5 => some .skipped
  | 6 => some .exempt
  | _ => none

/-- Last lift readings by code; another code counts as NONE (R30). -/
def LiftReading.ofCode : Nat → LiftReading
  | 1 => .two
  | 2 => .many
  | _ => .none

/-- The panel records of a side record from offset o. -/
def parsePanels (b : List Byte) (o n : Nat) : List Panel :=
  (List.range n).map (fun j => ⟨leNat b (o + 8 + 8 * j) 4, leNat b (o + 12 + 8 * j) 4⟩)

/-- A side record that fits the plan's panel count, as read; `none` where R30 resets the entry. -/
def parseSide (b : List Byte) (o panels : Nat) : Option SideRec :=
  match Status.ofCode (byteAt b o) with
  | none => none
  | some st =>
    if byteAt b (o + 2) = panels then
      some ⟨st, byteAt b (o + 1), leNat b (o + 4) 4, parsePanels b o panels⟩
    else none

/-- The ledger header's values that R31 reads. -/
structure HeaderRead where
  cursor : Nat
  nextFrame : Nat
  volDose : Nat
deriving DecidableEq, Repr

/-- The ledger header as read (Table 11-9). -/
def parseLedgerHeader (b : List Byte) : HeaderRead := ⟨leNat b 8 2, leNat b 12 4, leNat b 16 8⟩

/-! ### Frame descriptors (R145, Table 11-12) -/

/-- The buffer address as read. -/
def descAddr (b : List Byte) : Nat := leNat b 0 8

/-- The capacity as read. -/
def descCap (b : List Byte) : Nat := leNat b 8 4

/-- A capacity of at least 64 and a multiple of 64 (R145). -/
def capUsable (cap : Nat) : Bool := 64 ≤ cap && cap % 64 == 0

end Sys2Proof.Machine
end

