-- ==== Sys2Proof/Machine/Resets.lean ====
section
/-! DEFINITION. The two resets (section 4.5): POWER_ON_RESET (R161) and CONTROL_RESET (R171). Each block
is reset by its own rule in the same event: R1, R18, R47, R56, R57, R77, R78, R98, R124, R140, R143,
R152, R161, R171. Host memory keeps what it holds, with the writes in flight cut (log 6, log 36). -/

namespace Sys2Proof.Machine

/-- The exchange port after a controller reset: as after power-on, but BASE is kept and the cause is
CONTROLLER (R171). -/
def Exp.controllerReset (e : Exp) : Exp := { Exp.reset with base := e.base, cause := .controller }

/-- The vacuum over a controller reset (R78): a valve that was ON stays open. -/
def Vacuum.afterReset : Vacuum → Vacuum
  | .on => .heldAfterReset
  | v => v

/-- The turn sequencer after power-on reset (R77): the arm and the platen as the three position switches
show them; the sensor's reading goes on (log 7). -/
def Tsq.powerOn (park up down : Bool) (pressure : Nat) : Tsq :=
  { Tsq.reset with
    arm := if park then .parked else .unknown
    platen := if up && !down then .up else if down && !up then .down else .unknown
    parkSw := park, upSw := up, downSw := down, pressure := pressure }

/-- The turn sequencer over a controller reset (R78): the states from the switches, a DEAD arm and its
open relay kept. The foot stays where it is: R78 stops every motion and R77 lists no foot (DESIGN CHOICE, log
43). R78 leaves open whether a DEAD arm keeps the platen state too from being taken from the
switches: that the platen state is taken from them even then is the MODEL'S CHOICE (DESIGN CHOICE, log 40). -/
def Tsq.controllerReset (t : Tsq) : Tsq :=
  let fresh := Tsq.powerOn t.parkSw t.upSw t.downSw t.pressure
  { fresh with
    arm := if t.arm = .dead then .dead else fresh.arm
    vacuum := t.vacuum.afterReset
    foot := t.foot
    relayOpen := t.relayOpen }

/-- The blocks that both resets set alike, with the port and the sequencer given. -/
def State.resetBlocks (s : State) (exp : Exp) (tsq : Tsq) : State :=
  let cut := s.cutWrites
  { State.reset with exp := exp, tsq := tsq, host := cut.host, free := cut.free, pending := s.pending }

/-- POWER_ON_RESET: power is applied, with the levels of the three position switches (R77, R161). -/
def execPowerOnReset (park up down : Bool) (s : State) : StepOutcome :=
  .next (s.resetBlocks .reset (.powerOn park up down s.tsq.pressure))

/-- A controller reset in CLOSING does not let a write of the valid flag reach host memory: the flag holds 0
if step 1 had completed, and the value of the previous close if it had not (R55). -/
def State.cutCloseValid (s : State) : State :=
  if s.vau.vol = .closing then
    { s with host := { s.host with inFlight := s.host.inFlight.filter (fun w => !s.isCloseValid w) } }
  else s

/-- A controller reset (R171). -/
def State.controllerReset (s : State) : State :=
  s.cutCloseValid.resetBlocks s.exp.controllerReset s.tsq.controllerReset

/-- CONTROL_RESET: a CONTROL write with RESET 1; its ENABLE bit is discarded (R171). -/
def execControlReset (_enable : Bool) (s : State) : StepOutcome := .next s.controllerReset

end Sys2Proof.Machine
end

