-- ==== Sys2Proof/Machine/ExchangePort.lean ====
section
/-! DEFINITION. The exchange port's commands (chapter 10): the register writes, the end of a slot read,
the end of an answer write, and the GRANT write that the port passes to the frame bank manager (R144). -/

namespace Sys2Proof.Machine

/-! ### Register writes -/

/-- One slot named by a POST write: a FREE slot joins the queue, another is a mispost (R162). -/
def Exp.postOne (e : Exp) (i : Fin 16) : Exp :=
  if e.slot i = .free then { e.setSlot i .pending with queue := e.queue ++ [i] }
  else { e.raise .mispost with lastMispost := i }

/-- A POST write: the named slots in ascending number (R162); the last mispost is the highest-numbered. -/
def Exp.post (e : Exp) (v : Word32) : Exp :=
  (List.finRange 16).foldl (fun e i => if v.getLsbD i.val then e.postOne i else e) e

/-- POST (R162), with the take that it may begin (R163). -/
def execPost (v : Word32) (s : State) : StepOutcome := .next { s with exp := (s.exp.post v).tryTake }

/-- CONTROL_ENABLE: ENABLE takes bit 0, and the take of R163 may begin. A write with RESET 1 is a
controller reset (R171). -/
def execControlEnable (v : Word32) (s : State) : StepOutcome :=
  .next (if v.getLsbD 1 then s.controllerReset
    else { s with exp := { s.exp with enable := v.getLsbD 0 }.tryTake })

/-- One slot named by an ACK write (R167). -/
def Exp.ackOne (e : Exp) (i : Fin 16) : Exp :=
  if e.slot i = .answered then e.setSlot i .free else e

/-- ACK: each named ANSWERED slot becomes FREE; the other bits are ignored (R167). -/
def execAck (v : Word32) (s : State) : StepOutcome :=
  .next { s with exp :=
    (List.finRange 16).foldl (fun e i => if v.getLsbD i.val then e.ackOne i else e) s.exp }

/-- NOTE_CLEAR: each note whose bit is 1 is cleared (R168). -/
def execNoteClear (v : Word32) (s : State) : StepOutcome :=
  .next { s with exp := { s.exp with note := s.exp.note &&& ~~~ (v.setWidth 7) } }

/-- NOTE_MASK_WRITE: every enable takes the value written (R169). -/
def execNoteMaskWrite (v : Word32) (s : State) : StepOutcome :=
  .next { s with exp := { s.exp with noteMask := v.setWidth 7 } }

/-- BASE may be written: no volume open and every slot FREE (R170). -/
def State.baseFree (s : State) : Bool := s.vau.vol == .noVolume && s.exp.allFree

/-- BASE_WRITE: accepted or refused by the condition of R170. -/
def execBaseWrite (v : Word32) (s : State) : StepOutcome :=
  .next { s with exp :=
    if s.baseFree then { s.exp with base := v, baseRefused := false }
    else { s.exp with baseRefused := true } }

/-- REGISTER_WRITE_IGNORED: a write to STATUS, or to bits that a register does not name (R172, R174). -/
def execRegisterWriteIgnored (_reg : Reg) (_v : Word32) (s : State) : StepOutcome := .next s

/-! ### GRANT (R144) -/

/-- A bank named by a GRANT write: a HOST bank becomes GRANTED with four FREE descriptors. -/
def Bank.grant (b : Bank) : Bank := if b.granted then b else ⟨true, Vector.replicate 4 .free⟩

/-- The two bits of a GRANT write for one channel, with the report to OCC of a bank that became GRANTED
(R144); the banks of one channel are reported together (log 9). -/
def State.grantOf (s : State) (c : Chan) (a b : Bool) : State :=
  let f := s.fbk.get c
  let reported := (a && !f.bankA.granted) || (b && !f.bankB.granted)
  let s := s.setFbk c { f with
    bankA := if a then f.bankA.grant else f.bankA
    bankB := if b then f.bankB.grant else f.bankB }
  if reported then s.toOcc (.granted c) else s

/-- GRANT: bits 0 to 3 are L-A, L-B, R-A, R-B (R144, Table 11-14). -/
def execGrant (v : Word32) (s : State) : StepOutcome :=
  .next ((s.grantOf .left (v.getLsbD 0) (v.getLsbD 1)).grantOf .right (v.getLsbD 2) (v.getLsbD 3))

/-! ### Reads and answer writes -/

/-- SLOT_READ_COMPLETE: the read of the slot being taken completes (R164): the TAKEN status is written,
the form is checked (R165), the order goes to its owner or is answered BAD_ORDER, and the take ends.
With no take in progress nothing was read (log 1). -/
def execSlotReadComplete (bytes : List Byte) (s : State) : StepOutcome :=
  .next (match s.exp.take with
    | none => s
    | some i =>
      let s := s.issue (.slotStatus i) (s.slotAddr i + 64) (leBytes 1 1)
      let s := match parseOrder bytes with
        | none => s.answer i .badOrder
        | some o => { s with exp := { s.exp with orders := s.exp.orders ++ [Dispatched.mk i o] } }
      { s with exp := { s.exp with take := none }.tryTake })

/-- ANSWER_WRITE_COMPLETE: the answer write of a TAKEN slot completes, after the writes issued before it
to the same slot: the slot is ANSWERED and NOTE.ANSWER raised (R166). With no answer write in flight
nothing completes (log 1). -/
def execAnswerWriteComplete (i : Fin 16) (s : State) : StepOutcome :=
  .next (if s.hasInFlight (.slotAnswer i) && s.exp.slot i == .taken then
      let s := s.land (fun w => w.writer == .slotStatus i || w.writer == .slotAnswer i)
      { s with exp := (s.exp.setSlot i .answered).raise .answer }
    else s)

end Sys2Proof.Machine
end

