-- ==== Sys2Proof/Machine/FrameBanks.lean ====
section
/-! DEFINITION. The frame bank manager's commands (chapter 8): reservation and its descriptor reads
(R145, R146), release (R147) and filling (R148). GRANT (R144) is with the exchange port. -/

namespace Sys2Proof.Machine

/-- The request taken from the front of a channel's inbox at FBK. -/
def State.dropFbk (s : State) (c : Chan) (rest : List FbkMsg) : State :=
  s.setFbk c { s.fbk.get c with inbox := rest }

/-- RESERVATION_REQUEST (R145): BUSY while the channel holds a reservation or a search, otherwise the
search begins. -/
def execReservationRequest (c : Chan) (s : State) : StepOutcome :=
  .next (match (s.fbk.get c).inbox with
    | .reserve :: rest =>
      let s := s.dropFbk c rest
      let f := s.fbk.get c
      if f.hasReserved || f.search.isSome then s.toOcc (.reserveBusy c) else s.seek c
    | _ => s)

/-- DESCRIPTOR_READ_COMPLETE: the candidate's fields are read; it is reserved, or its UNUSABLE result is
issued (R145, R146). -/
def execDescriptorReadComplete (c : Chan) (bytes : List Byte) (s : State) : StepOutcome :=
  .next (
    let f := s.fbk.get c
    match f.search with
    | some (.reading i) =>
      if capUsable (descCap bytes) then
        (s.setFbk c { f.setDesc f.active i .reserved with search := none }).toOcc
          (.reserved c ⟨f.active, i, descAddr bytes, descCap bytes⟩)
      else
        (s.setFbk c { f with search := some (.writing i) }).issue (.fbk c)
          (s.descAddress c f.active i + 12) (unusableBytes s.vau.key)
    | _ => s)

/-- UNUSABLE_WRITE_COMPLETE: the descriptor is FILLED, its bank is tested, and the search goes on
(R146). -/
def execUnusableWriteComplete (c : Chan) (s : State) : StepOutcome :=
  .next (match (s.fbk.get c).search with
    | some (.writing i) =>
      let s := s.land (fun w => w.writer == .fbk c)
      (s.fillDesc c (s.fbk.get c).active i false).seek c
    | _ => s)

/-- RELEASE_REQUEST: taken when no search is in progress (R146); a RESERVED descriptor returns to FREE,
another is left as it is, and either is answered DONE (R147). -/
def execReleaseRequest (c : Chan) (s : State) : StepOutcome :=
  .next (match (s.fbk.get c).inbox, (s.fbk.get c).search with
    | .release b i :: rest, none => ((s.dropFbk c rest).releaseDesc c b i).toOcc (.released c)
    | _, _ => s)

/-- DESCRIPTOR_FILLED: a channel reports its RESERVED descriptor consumed (R148). -/
def execDescriptorFilled (c : Chan) (s : State) : StepOutcome :=
  .next (match (s.fbk.get c).inbox with
    | .filled b i :: rest =>
      let s := s.dropFbk c rest
      if ((s.fbk.get c).bank b).desc i = .reserved then s.fillDesc c b i true else s
    | _ => s)

end Sys2Proof.Machine
end

