-- ==== Sys2Proof/Machine/Light.lean ====
section
/-! DEFINITION. The light and dose unit's commands (chapter 6): admission and its charge (R101 to R115),
fire, strobe end, cancel, abort and interlock fall (R116 to R120), and bank faults (R121). -/

namespace Sys2Proof.Machine

/-- The first request of OCC that waits at the LDU, and the state in which the LDU has taken it. -/
def State.nextLdu (s : State) : Option (LduMsg × State) :=
  match s.ldu.inbox with
  | [] => none
  | m :: rest => some (m, { s with ldu := { s.ldu with inbox := rest } })

/-- The LDU replaced. -/
def State.setLdu (s : State) (l : Ldu) : State := { s with ldu := l }

/-! ### Admission (R101 to R115) -/

/-- The request can be admitted at t′ (R110): t′ is the time asked for, or lies from t_min up. -/
def DoseCase.fits (d : DoseCase) (p : Profile) : Bool := d.time == d.requested || p.tMin ≤ d.time

/-- The captured side of a single-side request. -/
def ChanSet.single (s : ChanSet) : Chan := if s.left then .left else .right

/-- The answer to a request that does not fit (R111, R112). -/
def State.shortfall (s : State) (sides : ChanSet) (d : DoseCase) : AdmissionReply :=
  if sides.left && sides.right then .split
  else if s.profile.doseMode = .withhold then .withheld sides.single d.bounds.shortest
  else .doseLimit sides.single d.bounds.shortest

/-- An admission request in IDLE (R110 to R113). -/
def State.considerAdmission (s : State) (sides : ChanSet) (cls : ExpClass) : State :=
  let d := s.doseCase sides cls
  if d.fits s.profile then s.charge sides cls d
  else s.toOcc (.admission (s.shortfall sides d))

/-- ADMISSION_REQUEST (R101, R102, R110): taken only in IDLE, answered BUSY in any other state. -/
def execAdmissionRequest (s : State) : StepOutcome :=
  .next (match s.nextLdu with
    | some (.request sides cls, s) =>
      if s.ldu.state = .idle then s.considerAdmission sides cls else s.toOcc (.admission .busy)
    | _ => s)

/-- CHARGE_WRITES_COMPLETE: the three dose writes complete; the admission is answered ADMITTED, or
ABANDONED when it was abandoned (R114, R115). -/
def execChargeWritesComplete (s : State) : StepOutcome :=
  .next (match s.ldu.state, s.ldu.record with
    | .charging, some r =>
      let s := s.land (fun w => w.writer == .ldu)
      if s.ldu.abandoned then (s.setLdu s.ldu.idle).toOcc (.admission .abandoned)
      else (s.setLdu { s.ldu with state := .admitted }).toOcc (.admission (.admitted r.time r.degraded))
    | _, _ => s)

/-- ABANDON_REQUEST: in CHARGING the writes run on to ABANDONED; in ADMITTED it is a cancel with no
channels; in another state it is answered DONE (R102, R115, R118). -/
def execAbandonRequest (s : State) : StepOutcome :=
  .next (match s.nextLdu with
    | some (.abandon, s) =>
      match s.ldu.state with
      | .charging => s.setLdu { s.ldu with abandoned := true }
      | .admitted => (s.setLdu s.ldu.idle).toOcc .done
      | .idle | .lit => s.toOcc .done
    | _ => s)

/-! ### Fire (R116, R117) -/

/-- The strobe begins: the driven banks of R100, the contact mark from the platen, bank lit true. -/
def State.beginStrobe (s : State) (r : ExposureRec) : State :=
  s.setLdu { s.ldu with
    state := .lit
    record := some { r with
      driven := s.drivenBanks r.mask, fault := false, contact := s.tsq.platen == .contact }
    bankLit := true
    fall := false }

/-- A fire request in ADMITTED: the strobe begins under the interlock, or is answered NOT_READY with CUT
notices (R116). -/
def State.fire (s : State) (r : ExposureRec) : State :=
  if s.tsq.ready then s.beginStrobe r
  else ((s.notifyAll r.sides (r.notice .cut false)).setLdu s.ldu.idle).toOcc (.fire .notReady)

/-- FIRE_REQUEST (R102, R116). -/
def execFireRequest (s : State) : StepOutcome :=
  .next (match s.nextLdu with
    | some (.fire, s) =>
      match s.ldu.state, s.ldu.record with
      | .admitted, some r => s.fire r
      | _, _ => s.toOcc (.fire .notAdmitted)
    | _ => s)

/-- A strobe ends, in whichever way: the channels are told, the fire request is answered, and bank lit
falls (R117, R119, R120). -/
def State.endStrobe (s : State) (r : ExposureRec) (kind : NoticeKind) (reply : FireReply) : State :=
  ((s.notifyAll r.sides (r.notice kind r.contact)).toOcc (.fire reply)).lampsOff

/-- The kind of notice at a strobe end: LIGHT_FAULT when the fault mark is set (R117, R121). -/
def ExposureRec.endKind (r : ExposureRec) : NoticeKind := if r.fault then .lightFault else .exposed

/-- STROBE_END: t′ after the strobe began (R117). -/
def execStrobeEnd (s : State) : StepOutcome :=
  .next (match s.ldu.state, s.ldu.record with
    | .lit, some r => s.endStrobe r r.endKind .strobeEnd
    | _, _ => s)

/-- CANCEL_REQUEST: an ADMITTED exposure ends, the named channels are told CUT (R118). -/
def execCancelRequest (s : State) : StepOutcome :=
  .next (match s.nextLdu with
    | some (.cancel chans, s) =>
      match s.ldu.state, s.ldu.record with
      | .admitted, some r =>
        ((s.notifyAll chans (r.notice .cut false)).setLdu s.ldu.idle).toOcc .done
      | _, _ => s.toOcc .done
    | _ => s)

/-- ABORT_REQUEST: a lit strobe is aborted (R119); in another state it is answered DONE (R102). -/
def execAbortRequest (s : State) : StepOutcome :=
  .next (match s.nextLdu with
    | some (.abort, s) =>
      match s.ldu.state, s.ldu.record with
      | .lit, some r => s.endStrobe r .cut .aborted
      | _, _ => s.toOcc .done
    | _ => s)

/-- INTERLOCK_FALL: a fall of ready-to-light during the strobe cuts it and is answered NOT_READY
(R120). -/
def execInterlockFall (s : State) : StepOutcome :=
  .next (match s.ldu.state, s.ldu.record with
    | .lit, some r => if s.ldu.fall then s.endStrobe r .cut .notReady else s
    | _, _ => s)

/-! ### Bank faults (R121) -/

/-- One bank as a mask. -/
def bankBit (b : Fin 4) : BitVec 4 := 1#4 <<< b.val

/-- OPEN_STRING_SENSE: a driven bank is RETIRED and dark, the fault mark is set, and LAMP_FAULT is
reported; a bank that is not driven is unchanged (R121). -/
def execOpenStringSense (b : Fin 4) (s : State) : StepOutcome :=
  .next (match s.ldu.state, s.ldu.record with
    | .lit, some r =>
      if r.driven.getLsbD b.val then
        (s.setLdu { s.ldu with
          retired := s.ldu.retired ||| bankBit b
          record := some { r with driven := r.driven &&& ~~~ bankBit b, fault := true } }).toOcc .lampFault
      else s
    | _, _ => s)

end Sys2Proof.Machine
end

