-- ==== Sys2Proof/Machine/ProfileStore.lean ====
section
/-! DEFINITION. The profile store's commands: LOAD TABLES, from the order to the tables in force and the
side-band slots cleared (R12 to R16, R155). -/

namespace Sys2Proof.Machine

/-- PFS starts the orders that wait, one at a time: an order that finds a volume open is answered at
once, and the next one is started (R12). -/
def State.startLoads (s : State) : List (Fin 16) → State
  | [] => { s with pfs := { s.pfs with job := none, waiting := [] } }
  | i :: rest =>
    if s.vau.vol = .noVolume then
      { s with pfs := { s.pfs with job := some (.reading i), waiting := rest } }
    else (s.answer i .volumeOpen).startLoads rest

/-- An order of PFS is answered, and the next one that waits is started (R12). -/
def State.endLoad (s : State) (i : Fin 16) (code : AnswerCode) (fields : List FieldVal := []) : State :=
  (s.answer i code fields).startLoads s.pfs.waiting

/-- LOAD_TABLES: PFS receives an order; it waits while another is carried out (R12). -/
def execLoadTables (s : State) : StepOutcome :=
  .next (match s.nextOrder .pfs with
    | none => s
    | some (d, s) =>
      match s.pfs.job with
      | some _ => { s with pfs := { s.pfs with waiting := s.pfs.waiting ++ [d.slot] } }
      | none => s.startLoads [d.slot])

/-- The staging copy installed: all three groups at once, the store LOADED, and every bank READY; each
channel has still to take its slots (R15, steps 1 to 4). -/
def State.installTables (s : State) (i : Fin 16) (image : List Byte) : State :=
  { s with
    pfs := { s.pfs with
      loaded := true
      classes := parseClasses image
      profiles := parseProfiles image
      cradle := parseCradle image cradleAt
      job := some (.clearing i .both) }
    ldu := { s.ldu with retired := 0 } }

/-- TABLE_IMAGES_READ: the staging reads complete; validation, then the second look at the volume state,
then the tables are installed (R13 to R16). -/
def execTableImagesRead (image : List Byte) (s : State) : StepOutcome :=
  .next (match s.pfs.job with
    | some (.reading i) =>
      match tableFailure image with
      | some (g, n) => s.endLoad i .badTable [⟨68, 1, g.code⟩, ⟨69, 1, n⟩]
      | none =>
        if s.vau.vol = .noVolume then s.installTables i image else s.endLoad i .volumeOpen
    | _ => s)

/-- A slot cleared with its new type and flag (R155). -/
def SbSlot.cleared (type : Nat) (storeOnError : Bool) : SbSlot :=
  { SbSlot.reset with type := type, storeOnError := storeOnError }

/-- SIDEBAND_SLOTS_CLEAR: a channel takes its four new types and flags and clears its slots; when both
channels have, LOAD TABLES is answered DONE (R15, steps 3 and 5; R155; log 11). -/
def execSidebandSlotsClear (c : Chan) (s : State) : StepOutcome :=
  .next (match s.pfs.job with
    | some (.clearing i todo) =>
      if todo.has c then
        let cfg := s.pfs.cradle.slotConfig.get c
        let s := s.setCch c ((s.cch.get c).mapSlots (fun k _ =>
          .cleared (cfg.types.getD k.val 0) (cfg.storeOnError.getD k.val false)))
        let todo := todo.erase c
        if todo.isEmpty then s.endLoad i .done
        else { s with pfs := { s.pfs with job := some (.clearing i todo) } }
      else s
    | _ => s)

end Sys2Proof.Machine
end

