-- ==== Sys2Proof/Machine/SideBand.lean ====
section
/-! DEFINITION. The side-band commands (chapter 9): the intake of SIDEBAND messages (R153, R154) and the
READ SIDEBAND order (R159, R160). -/

namespace Sys2Proof.Machine

/-- The sum of the message from the type byte to the check byte is 0 modulo 256 (R154). -/
def sidebandCheck (type : Byte) (payload : List Byte) (check : Byte) : Bool :=
  payload.foldl (· + ·) (type + BitVec.ofNat 8 payload.length) + check == 0

/-- The slot a message matches: its type, where that is not 0 (R154). -/
def Cch.matching (x : Cch) (type : Byte) : Option (Fin 4) :=
  if type = 0 then none else (List.finRange 4).find? (fun i => (x.slot i).type == type.toNat)

/-- A message stored in its slot, or discarded for its check byte (R154). -/
def SbSlot.store (b : SbSlot) (payload : List Byte) (passes : Bool) : SbSlot :=
  if passes || b.storeOnError then
    { b with valid := true, checkError := !passes, age := 0, received := true, length := payload.length,
             payload := payload ++ List.replicate (24 - payload.length) 0 }
  else b

/-- A complete message taken by the channel (R154). -/
def Cch.takeSideband (x : Cch) (type : Byte) (payload : List Byte) (check : Byte) : Cch :=
  match x.matching type with
  | none => x
  | some i =>
    x.mapSlots (fun k b => if k = i then b.store payload (sidebandCheck type payload check) else b)

/-- SIDEBAND: its start mark ends a frame in progress (log 23), and the complete message is taken in any
channel state (R153, R154). A payload above 24 bytes is no SIDEBAND: it is discarded. -/
def execSideband (c : Chan) (type : Byte) (payload : List Byte) (check : Byte) (s : State) : StepOutcome :=
  let s := s.startMark c
  .next (if payload.length ≤ 24 then s.setCch c ((s.cch.get c).takeSideband type payload check) else s)

/-- SIDEBAND_MALFORMED: a length byte above 24 discards the message, after its start mark (R153). -/
def execSidebandMalformed (c : Chan) (_type _length : Byte) (s : State) : StepOutcome :=
  .next (s.startMark c)

/-- The channels start the orders that wait, one at a time (R159). -/
def Sideband.start : List (Fin 16) → Sideband
  | [] => ⟨none, []⟩
  | i :: rest => ⟨some ⟨i, .both, .both⟩, rest⟩

/-- READ_SIDEBAND: the order is started, or waits behind another (R159). -/
def execReadSideband (s : State) : StepOutcome :=
  .next (match s.nextOrder .cch with
    | none => s
    | some (d, s) =>
      match s.sideband.job with
      | some _ => { s with sideband := { s.sideband with waiting := s.sideband.waiting ++ [d.slot] } }
      | none => { s with sideband := .start [d.slot] })

/-- SIDEBAND_COPY: a channel copies its four slots as they stand and issues its report write (R159). -/
def execSidebandCopy (c : Chan) (s : State) : StepOutcome :=
  .next (match s.sideband.job with
    | some j =>
      if j.toCopy.has c then
        { s with sideband := { s.sideband with job := some { j with toCopy := j.toCopy.erase c } } }.issue
          (.report c) (s.area + reportOffset c) (reportBytes (s.cch.get c).slots)
      else s
    | none => s)

/-- SIDEBAND_REPORT_WRITTEN: a report write completes; after the second the order is answered DONE and
the next is started (R159). -/
def execSidebandReportWritten (c : Chan) (s : State) : StepOutcome :=
  .next (match s.sideband.job with
    | some j =>
      if s.hasInFlight (.report c) && j.toWrite.has c then
        let s := s.land (fun w => w.writer == .report c)
        let left := j.toWrite.erase c
        if left.isEmpty then { s with sideband := .start s.sideband.waiting }.answer j.slot .done
        else { s with sideband := { s.sideband with job := some { j with toWrite := left } } }
      else s
    | none => s)

end Sys2Proof.Machine
end

