-- ==== Sys2Proof/Machine/Turning.lean ====
section
/-! DEFINITION. The turn sequencer's commands (chapter 5): its requests and STOP, the switches and
sensors, its watches, and the PARK and ARM RESTORE orders. Every meaning ends in `State.settle`, since
the interlock signal follows the states in the same event (R80). -/

namespace Sys2Proof.Machine

/-- The end of an event at TSQ: the state it leads to, with the interlock signal following (R80). -/
def State.tsqNext (s after : State) : StepOutcome := .next (after.settle s.tsq.ready)

/-- TSQ in a stage. -/
def Tsq.inStage (t : Tsq) (g : Stage) : Bool := t.stage == some g

/-- At rest for R79: no work in flight, and the arm not DEAD (log 15). -/
def Tsq.atRest (t : Tsq) : Bool := t.work == .none && t.arm != .dead

/-! ### Requests of OCC (R81, R89, R95) -/

/-- The turn is refused (R81); work in flight is a PARK's, or one that OCC's protocol excludes. -/
def Tsq.refusesTurn (t : Tsq) : Bool := t.arm != .parked || t.vacuum != .off || t.work != .none

/-- An accepted turn (R81): entry r, the counters and the level set; PLATEN_UP begins, or waits for bank
lit to fall. -/
def State.acceptTurn (s : State) (c : Nat) : State :=
  let r := nextPhysical s.vau.plan c
  let t := { s.tsq with
    work := .turn c r, attempts := 0, heavy := 0, windowClosed := false, failure := none
    stopTaken := false, turnedBack := false, level := s.baseKnife r }
  s.setTsq (if s.ldu.bankLit then { t with stage := some .waitDark } else t.beginPlatenUp s.profile)

/-- TURN_REQUEST (R81). -/
def execTurnRequest (s : State) : StepOutcome :=
  s.tsqNext (match s.tsq.inbox with
    | .turn c :: rest =>
      let s := s.setTsq { s.tsq with inbox := rest }
      if s.tsq.refusesTurn then s.toOcc (.turn .armNotReady) else s.acceptTurn c
    | _ => s)

/-- PLATEN_REQUEST: taken when no work is in flight (R89). -/
def execPlatenRequest (s : State) : StepOutcome :=
  s.tsqNext (match s.tsq.inbox with
    | .platen :: rest =>
      if s.tsq.work = .none then
        (s.setTsq { s.tsq with inbox := rest, work := .platen }).beginPlatenDown
      else s
    | _ => s)

/-- A STOP turns the turn back: it will end STOPPED, and its retry window is stopped (R95, rows 1, 2). -/
def Tsq.turnBack (t : Tsq) : Tsq := { t with turnedBack := true, retryWatch := none }

/-- What a STOP does at each stage of a turn (R95; log 16). -/
def State.stopTurn (s : State) (g : Stage) : State :=
  match g with
  | .waitDark | .platenUp => (s.setTsq s.tsq.turnBack).beginPlatenDown
  | .reach | .separate => s.setTsq (s.tsq.turnBack.beginReturn s.profile)
  | .lift | .read => s.setTsq (s.tsq.turnBack.beginRelease s.profile)
  | .release => if s.tsq.failure.isSome then s else s.setTsq s.tsq.turnBack
  | .sweep | .setDown | .goHome | .platenDown | .retract => s

/-- TSQ_STOP: a STOP passed by OCC (R95); it does not stop a platen request, and finds nothing to act on
when the work has just ended. -/
def execTsqStop (s : State) : StepOutcome :=
  s.tsqNext (match s.tsq.inbox with
    | .stop :: rest =>
      let s := s.setTsq { s.tsq with inbox := rest }
      match s.tsq.work, s.tsq.stage with
      | .turn _ _, some g => (s.setTsq { s.tsq with stopTaken := true }).stopTurn g
      | .platen, _ => s.setTsq { s.tsq with stopTaken := true }
      | _, _ => s
    | _ => s)

/-! ### The position switches and the pressure sensor (R79, R81, R88, R89, R94, R96) -/

/-- UP_SWITCH_CLOSES: PLATEN_UP ends and REACH begins (R81); an UNKNOWN platen at rest is UP (R79). -/
def execUpSwitchCloses (s : State) : StepOutcome :=
  let t := { s.tsq with upSw := true }
  s.tsqNext (s.setTsq (
    if t.inStage .platenUp then { t with platen := .up }.beginReach s.profile
    else if t.atRest && t.platen == .unknown then { t with platen := .up }
    else t))

/-- UP_SWITCH_OPENS: an UP platen at rest is UNKNOWN (R79). -/
def execUpSwitchOpens (s : State) : StepOutcome :=
  let t := { s.tsq with upSw := false }
  s.tsqNext (s.setTsq (if t.atRest && t.platen == .up then { t with platen := .unknown } else t))

/-- DOWN_SWITCH_CLOSES: PLATEN_DOWN ends with the platen DOWN (R89); an UNKNOWN platen at rest is DOWN
(R79). -/
def execDownSwitchCloses (s : State) : StepOutcome :=
  let t := { s.tsq with downSw := true }
  s.tsqNext (
    if t.inStage .platenDown then (s.setTsq t).arriveDown .down
    else s.setTsq (if t.atRest && t.platen == .unknown then { t with platen := .down } else t))

/-- DOWN_SWITCH_OPENS: a DOWN platen at rest is UNKNOWN (R79). -/
def execDownSwitchOpens (s : State) : StepOutcome :=
  let t := { s.tsq with downSw := false }
  s.tsqNext (s.setTsq (if t.atRest && t.platen == .down then { t with platen := .unknown } else t))

/-- PRESSURE_READING: a reading at the limit during PLATEN_DOWN stops the platen in CONTACT (R89). A reading is
kept whenever it comes, for the begin of a later PLATEN_DOWN (DESIGN CHOICE, log 42). -/
def execPressureReading (counts : Fin 1024) (s : State) : StepOutcome :=
  let s' := s.setTsq { s.tsq with pressure := counts.val }
  s.tsqNext (
    if s'.tsq.inStage .platenDown && s.profile.pressureLimit ≤ counts.val then s'.arriveDown .contact
    else s')

/-- PARK_SWITCH_CLOSES: RETURN, a retract or a PARK ends with the arm PARKED (R88, R94, R96); a HELD or
UNKNOWN arm at rest is PARKED (R79). -/
def execParkSwitchCloses (s : State) : StepOutcome :=
  let t := { s.tsq with parkSw := true }
  let parked := s.setTsq { t with arm := .parked }
  s.tsqNext (match t.work, t.stage with
    | .park slot, _ => (parked.setTsq parked.tsq.endWork).answer slot .done
    | .turn _ _, some .goHome => (parked.setTsq { parked.tsq with stageWatch := none }).beginPlatenDown
    | .turn _ _, some .retract => parked.stallTurn
    | .none, _ => if t.arm = .held ∨ t.arm = .unknown then parked else s.setTsq t
    | _, _ => s.setTsq t)

/-- PARK_SWITCH_OPENS: a PARKED arm at rest is UNKNOWN (R79). -/
def execParkSwitchOpens (s : State) : StepOutcome :=
  let t := { s.tsq with parkSw := false }
  s.tsqNext (s.setTsq (if t.atRest && t.arm == .parked then { t with arm := .unknown } else t))

/-! ### The turn's stages (R82 to R88, R91) -/

/-- EDGE_REACHED: REACH ends and SEPARATE begins (R82). -/
def execEdgeReached (s : State) : StepOutcome :=
  s.tsqNext (match s.tsq.work, s.tsq.stage with
    | .turn _ r, some .reach => s.setTsq (s.tsq.beginSeparate s.profile (s.baseKnife r))
    | _, _ => s)

/-- BURST_END: SEPARATE ends and LIFT begins (R82, R84). -/
def execBurstEnd (s : State) : StepOutcome :=
  s.tsqNext (if s.tsq.inStage .separate then s.setTsq (s.tsq.beginLift s.profile) else s)

/-- VACUUM_SWITCH_CLOSES: LIFT ends and READ begins (R84). -/
def execVacuumSwitchCloses (s : State) : StepOutcome :=
  s.tsqNext (if s.tsq.inStage .lift then s.setTsq { s.tsq with stage := some .read, stageWatch := none }
    else s)

/-- RELEASE ends: a turn turned back, or one whose failure is recorded, returns; another tries again
(R86, R87, R95). -/
def State.endRelease (s : State) (r : Nat) : State :=
  if s.tsq.turnedBack || s.tsq.failure.isSome then s.setTsq (s.tsq.beginReturn s.profile)
  else s.setTsq (s.tsq.beginSeparate s.profile (s.baseKnife r))

/-- A leaf lost in SWEEP (R91): the arm HELD, the vacuum OFF, NOTE.ARM, the UNCERTAIN flag of the entry
(R38), and LEAF_DROPPED with the entry. -/
def State.dropLeaf (s : State) (r : Nat) : State :=
  ((s.setTsq { s.tsq with vacuum := .off }).holdArm.changeAccount
    (fun v => v.setUncertain r true)).answerTurn (.failed .leafDropped r)

/-- VACUUM_SWITCH_OPENS: it ends RELEASE or SET_DOWN, loses the hold in READ, or loses the leaf in SWEEP
(R84, R85, R88, R91). -/
def execVacuumSwitchOpens (s : State) : StepOutcome :=
  s.tsqNext (match s.tsq.work, s.tsq.stage with
    | .turn _ r, some .release => s.endRelease r
    | .turn _ _, some .setDown => s.setTsq (s.tsq.beginReturn s.profile)
    | .turn _ r, some .read => s.failAttempt r .none
    | .turn _ r, some .sweep => s.dropLeaf r
    | _, _ => s)

/-- READ_SETTLED: ONE begins SWEEP; another reading is a failed attempt (R85). -/
def execReadSettled (reading : LeafReading) (s : State) : StepOutcome :=
  s.tsqNext (match s.tsq.work, s.tsq.stage with
    | .turn _ r, some .read =>
      match reading with
      | .one => s.setTsq (s.tsq.beginSweep s.profile)
      | .none => s.failAttempt r .none
      | .two => s.failAttempt r .two
      | .many => s.failAttempt r .many
    | _, _ => s)

/-- SWEEP_END: SWEEP ends and SET_DOWN begins (R88). -/
def execSweepEnd (s : State) : StepOutcome :=
  s.tsqNext (if s.tsq.inStage .sweep then s.setTsq (s.tsq.beginSetDown s.profile) else s)

/-! ### The watches (R86, R92 to R94, R96) -/

/-- RETRY_WINDOW_EXPIRY: window closed becomes 1 (R86). -/
def execRetryWindowExpiry (s : State) : StepOutcome :=
  s.tsqNext (if s.tsq.retryWatch.mayExpire
    then s.setTsq { s.tsq with retryWatch := none, windowClosed := true } else s)

/-- The expiry of a stage watch: a PARK ends STALL (R96), a platen or an arm stalls (R92), a retract ends
(R94). -/
def State.stageExpired (s : State) : State :=
  match s.tsq.work, s.tsq.stage with
  | .park slot, _ => (s.holdArm.setTsq s.holdArm.tsq.endWork).answer slot .stall
  | _, some .platenUp | _, some .platenDown => s.platenStall
  | _, some .retract =>
    (if s.tsq.cutWatch.isSome then s.cutArm else s.holdArm).stallTurn
  | _, _ => s.armStall

/-- STAGE_WATCH_EXPIRY (R92). -/
def execStageWatchExpiry (s : State) : StepOutcome :=
  s.tsqNext (if s.tsq.stageWatch.mayExpire then s.stageExpired else s)

/-- CUT_DELAY_EXPIRY: under RETRACT_CUT the arm becomes DEAD before it reaches park (R94). -/
def execCutDelayExpiry (s : State) : StepOutcome :=
  s.tsqNext (if s.tsq.cutWatch.isSome then s.cutArm.stallTurn else s)

/-! ### PARK and ARM RESTORE (R96, R97) -/

/-- In OPENING and CLOSING both orders are refused BUSY (R33, R52). -/
def VolState.refusesArm : VolState → Bool
  | .opening | .closing => true
  | _ => false

/-- The class of a PARK's arm watch: 12 when no volume is open (R96). -/
def State.parkClass (s : State) : Nat := if s.vau.vol = .noVolume then 12 else s.profile.armClass

/-- PARK when it is taken (R96): with the release flag the vacuum is OFF and the foot is lowered. -/
def State.park (s : State) (i : Fin 16) (release : Bool) : State :=
  if s.vau.vol.refusesArm then s.answer i .busy
  else if s.tsq.arm = .dead then s.answer i .armDead
  else if s.tsq.work ≠ .none then s.answer i .busy
  else
    let t := if release then { s.tsq with vacuum := .off, foot := .lowered } else s.tsq
    if t.arm = .parked then (s.setTsq t).answer i .done
    else s.setTsq { t with work := .park i, arm := .moving, stageWatch := some s.parkClass }

/-- PARK (R96). -/
def execPark (s : State) : StepOutcome :=
  s.tsqNext (match s.nextOrder .tsq with
    | some (⟨i, .park release⟩, s) => s.park i release
    | _ => s)

/-- ARM RESTORE when it is taken (R97). -/
def State.armRestore (s : State) (i : Fin 16) : State :=
  if s.vau.vol.refusesArm then s.answer i .busy
  else if s.tsq.arm = .dead then
    (s.setTsq { s.tsq with arm := .unknown, relayOpen := false }).answer i .done
  else s.answer i .notDead

/-- ARM_RESTORE (R97). -/
def execArmRestore (s : State) : StepOutcome :=
  s.tsqNext (match s.nextOrder .tsq with
    | some (⟨i, .armRestore⟩, s) => s.armRestore i
    | _ => s)

end Sys2Proof.Machine
end

