-- ==== Sys2Proof/Machine/Volume.lean ====
section
/-! DEFINITION. The volume accounting unit's commands: OPEN VOLUME in its four reads and writes
(R26 to R33), AMEND (R34, R35), HAND DONE (R48, R49, R70) and CLOSE VOLUME (R50 to R55). -/

namespace Sys2Proof.Machine

/-- VAU's account replaced. -/
def State.setVau (s : State) (v : Vau) : State := { s with vau := v }

/-! ### OPEN VOLUME -/

/-- VAU starts the orders that wait, one at a time: an order that finds a volume open is answered at
once, and the next one is started (R26). -/
def State.startOpens (s : State) : List (Fin 16) → State
  | [] => s.setVau { s.vau with openJob := none, openWaiting := [] }
  | i :: rest =>
    if s.vau.vol = .noVolume then
      s.setVau { s.vau with openJob := some ⟨i, .header⟩, openWaiting := rest }
    else (s.answer i .volumeOpen).startOpens rest

/-- The order being carried out is answered, and the next one that waits is started (R26). -/
def State.endOpen (s : State) (i : Fin 16) (code : AnswerCode) (fields : List FieldVal := []) : State :=
  (s.answer i code fields).startOpens s.vau.openWaiting

/-- OPEN_VOLUME: VAU receives an order; it waits while another is carried out (R26). -/
def execOpenVolume (s : State) : StepOutcome :=
  .next (match s.nextOrder .vau with
    | some (⟨i, .openVolume⟩, s) =>
      match s.vau.openJob with
      | some _ => s.setVau { s.vau with openWaiting := s.vau.openWaiting ++ [i] }
      | none => s.startOpens [i]
    | _ => s)

/-- The index of a BAD_PLAN answer for the sheet header (R27). -/
def headerIndex : Nat := 65535

/-- SHEET_HEADER_READ: step 1 of R27; when the plan length passes, the plan entries are read (R26; log 41). -/
def execSheetHeaderRead (header : List Byte) (s : State) : StepOutcome :=
  .next (match s.vau.openJob with
    | some ⟨i, .header⟩ =>
      let h := parseHeader header
      if lengthPasses h then s.setVau { s.vau with openJob := some ⟨i, .plan h⟩ }
      else s.endOpen i .badPlan [⟨70, 2, headerIndex⟩]
    | _ => s)

/-- The class lookup (R3). -/
def Pfs.lookup (p : Pfs) (key : Nat) : Option Nat :=
  match p.classes.find? (fun c => c.valid && c.base ≤ key && key ≤ c.limit) with
  | some c => some c.profile
  | none => if p.cradle.defaultEnable then some p.cradle.defaultProfile else none

/-- The volume enters OPENING: the plan installed, the profile in force fixed, the cursor 0 (R25, R28). -/
def State.enterOpening (s : State) (h : SheetHeader) (plan : List PlanEntry) (profile : Nat) : State :=
  s.setVau { s.vau with
    vol := .opening, plan := plan, key := h.key, part := h.part, text := h.text, profile := some profile
    cursor := 0, unfolded := false, nextPanel := 1 }

/-- A fresh ledger: the mirror set, every entry and the header written (R29). -/
def State.freshLedger (s : State) (i : Fin 16) : State :=
  let mirror := freshMirror s.vau.plan
  let s := s.setVau { s.vau with mirror := mirror, nextFrame := 1, openJob := some ⟨i, .writes 0⟩ }
  ((mapFrom (fun e x => (e, x)) 0 mirror).foldl (fun s p => s.writeEntryWhole p.1 p.2) s).writeHeaderWhole 0

/-- The ledger of a resumed volume: the close record's valid flag is cleared when its key is the
sheet's, and the ledger is then read back (R30). -/
def State.resumeLedger (s : State) (i : Fin 16) (closeRecord : List Byte) : State :=
  let s := s.setVau { s.vau with openJob := some ⟨i, .ledger⟩ }
  if closeKey closeRecord = s.vau.key then s.writeCloseValid 0 else s

/-- PLAN_READ: steps 2 and 3 of R27, the class lookup of R28, and, when the volume enters OPENING, the begin
of its ledger work (R29, R30; log 41). -/
def execPlanRead (entries closeRecord : List Byte) (s : State) : StepOutcome :=
  .next (match s.vau.openJob with
    | some ⟨i, .plan h⟩ =>
      if !resumePasses h then s.endOpen i .badPlan [⟨70, 2, headerIndex⟩]
      else match parsePlan entries h.length with
      | .error e => s.endOpen i .badPlan [⟨70, 2, e⟩]
      | .ok plan =>
        if !s.pfs.loaded then s.endOpen i .noTables
        else match s.pfs.lookup h.key with
          | none => s.endOpen i .noClass
          | some p =>
            let s := s.enterOpening h plan p
            if h.resume = 0 then s.freshLedger i else s.resumeLedger i closeRecord
    | _ => s)

/-! ### The ledger read back (R30, R31) -/

/-- The resume correction of a side: CAPTURED with a panel missing becomes RETAKE_DUE (R30). -/
def SideRec.correct (r : SideRec) : SideRec :=
  if r.status = .captured ∧ !r.complete then { r with status := .retakeDue } else r

/-- Whether the sides as read fit the plan entry, or the entry is to be reset (R30). -/
def fitSides (p : PlanEntry) (b : List Byte) (o : Nat) : Option (SideRec × SideRec) :=
  if Kind.ofCode (byteAt b o) = some p.kind then
    match parseSide b (o + 16) (p.panelsOf .verso), parseSide b (o + 88) (p.panelsOf .recto) with
    | some v, some r => some (v, r)
    | _, _ => none
  else none

/-- Entry e of the ledger as read, reconciled with the plan entry; and whether it was reset or corrected
(R30). -/
def reconcile (b : List Byte) (e : Nat) (p : PlanEntry) : LedgerEntry × Bool :=
  let o := 192 * e
  let flags := byteAt b (o + 1)
  let entry (amended : Bool) (verso recto : SideRec) : LedgerEntry :=
    { kind := p.kind, tag := p.tag, attempts := min 15 (byteAt b (o + 2)),
      reading := .ofCode (byteAt b (o + 3)), amended := amended, uncertain := flags / 2 % 2 == 1,
      verso := verso, recto := recto }
  match fitSides p b o with
  | none =>
    (entry true (initialSide p (e == 0) .verso (byteAt b (o + 17)) (leNat b (o + 20) 4))
      (initialSide p (e == 0) .recto (byteAt b (o + 89)) (leNat b (o + 92) 4)), true)
  | some (v, r) =>
    (entry (flags % 2 == 1) v.correct r.correct,
      v.correct != v || r.correct != r || 15 < byteAt b (o + 2) || 2 < byteAt b (o + 3) || 3 < flags
        || leNat b (o + 4) 4 != p.tag)

/-- The largest accepted frame number of the mirror, 0 where there is none. -/
def largestFrame (mirror : List LedgerEntry) : Nat :=
  (sidesOf mirror).foldl (fun m r => r.panels.foldl (fun m p => max m p.number) m) 0

/-- The sum of the side doses of the mirror. -/
def mirrorDose (mirror : List LedgerEntry) : Nat := ((sidesOf mirror).map (·.dose)).sum

/-- The next accepted-frame number of a resumed volume (R31). -/
def resumedNumber (header : Nat) (mirror : List LedgerEntry) : Nat :=
  if header = 0 ∨ largestFrame mirror = 4294967295 then 0
  else max (max header (largestFrame mirror + 1)) 1

/-- The volume-level values of a resumed volume, the skip marking, and the writes of what was reset,
corrected or marked (R30, R31; log 28). -/
def State.resume (s : State) (i : Fin 16) (h : HeaderRead) (entries : List Byte) : State :=
  let v := s.vau
  let found := mapFrom (reconcile entries) 0 v.plan
  let mirror := found.map (·.1)
  let cursor := if inOpeningRange v.plan h.cursor then h.cursor else 0
  let marked := skipMark v.plan 0 cursor mirror
  let dose := max h.volDose (mirrorDose mirror)
  let s := s.setVau { v with
    mirror := marked, cursor := cursor, nextFrame := resumedNumber h.nextFrame mirror,
    openJob := some ⟨i, .writes dose⟩ }
  let written := (mapFrom (fun e x => (e, x)) 0 (marked.zip found)).filter
    (fun p => p.2.2.2 || p.2.1 != p.2.2.1)
  (written.foldl (fun s p => s.writeEntryWhole p.1 p.2.1) s).writeHeaderWhole dose

/-- LEDGER_READ_COMPLETE: the ledger of a resumed volume is reconciled and its writes issued (R30, R31). -/
def execLedgerReadComplete (header entries : List Byte) (s : State) : StepOutcome :=
  .next (match s.vau.openJob with
    | some ⟨i, .ledger⟩ => s.resume i (parseLedgerHeader header) entries
    | _ => s)

/-! ### The end of the opening (R32, R33) -/

/-- The resynchronisation of a channel (R32, R139): a restart into IDLE, with a take that is outstanding
ended without judgement and its take record cleared. The intake counts and the CRC keep their values (DESIGN
CHOICE, log 35). -/
def Cch.resync (x : Cch) : Cch :=
  { x.restart with state := .idle, take := none, frameWatch := none, result := none,
                   intake := x.abandonFrame }

/-- The resynchronisation of a channel, with the descriptor of its take returned to FREE and its buffer as
written (R32, R147). -/
def State.resyncChannel (s : State) (c : Chan) : State :=
  let x := s.cch.get c
  let s := (s.landBody c).setCch c x.resync
  match x.take with
  | some t => s.releaseDesc c t.desc.bank t.desc.index
  | none => s

/-- The active bank of a channel set to bank A (R32). -/
def State.activateA (s : State) (c : Chan) : State := s.setFbk c { s.fbk.get c with active := .bankA }

/-- The end of the ledger work: the LDU, OCC, the channels and the banks are set (R32). The volume dose
is never below the sum of the side doses (R31, R99). -/
def State.setUp (s : State) (volDose : Nat) : State :=
  let doses := s.vau.mirror.map (fun e => (e.verso.dose, e.recto.dose))
  let s := { s with
    ldu := { s.ldu with sideDose := doses, volDose := max volDose (doseSum doses) }
    occ := { Occ.reset with auto := s.vau.mirror.map (fun _ => (0, 0)), inbox := s.occ.inbox,
                             releasing := s.occ.releasing } }
  (((s.resyncChannel .left).resyncChannel .right).activateA .left).activateA .right

/-- OPENING_WRITES_COMPLETE: the ledger work of the opening is complete; the volume is READY and the
order answered DONE with the profile and the cursor (R32, R33). -/
def execOpeningWritesComplete (s : State) : StepOutcome :=
  .next (match s.vau.openJob with
    | some ⟨i, .writes dose⟩ =>
      let s := ((s.landVau s.host.serial).setUp dose).enterRest .ready
      s.endOpen i .done [⟨68, 1, s.vau.profile.getD 0⟩, ⟨70, 2, s.vau.cursor⟩]
    | _ => s)

/-! ### AMEND (R34, R35) -/

/-- The kinds an AMEND may give (R34). -/
def Kind.amendable : Kind → Bool
  | .text | .plate | .tissue | .lacuna => true
  | .board | .foldout => false

/-- A side record under the new kind: the status of Table 2-2 and one empty panel; takes and dose kept
(R35). -/
def SideRec.amend (r : SideRec) (k : Kind) (side : Side) : SideRec :=
  { r with status := initialStatus k false side, panels := emptyPanels 1 }

/-- The plan and mirror change of an accepted AMEND (R35). -/
def Vau.amend (v : Vau) (e : Nat) (k : Kind) : Vau :=
  { v.mapEntry e (fun x => { x with
      kind := k, amended := true, verso := x.verso.amend k .verso, recto := x.recto.amend k .recto })
    with plan := v.plan.modify e (fun p => { p with kind := k, panels := 1 }) }

/-- AMEND: the checks of R34, then the change of R35 with its writes. -/
def State.amend (s : State) (i : Fin 16) (e kindCode : Nat) : State :=
  let v := s.vau
  match v.vol with
  | .noVolume => s.answer i .noVolume
  | .opening | .closing => s.answer i .busy
  | .ready | .cycling | .handWait =>
    match (Kind.ofCode kindCode).filter Kind.amendable with
    | none => s.answer i .badPlan [⟨70, 2, e⟩]
    | some k =>
      if v.plan.length ≤ e ∨ e = 0 ∨ e + 1 = v.plan.length then s.answer i .badPlan [⟨70, 2, e⟩]
      else if e ≤ v.rightEntry then s.answer i .tooLate [⟨70, 2, v.rightEntry⟩]
      else if (planAt v.plan e).kind = k then s.answer i .done
      else
        let s := s.changeAccount (fun v => v.amend e k) true
        s.setVau { s.vau with amendJobs := s.vau.amendJobs ++ [⟨i, s.host.serial⟩] }

/-- AMEND: VAU takes the order (R34). -/
def execAmend (s : State) : StepOutcome :=
  .next (match s.nextOrder .vau with
    | some (⟨i, .amend e k⟩, s) => s.amend i e k
    | _ => s)

/-- AMEND_WRITES_COMPLETE: the writes of the earliest accepted AMEND complete and it is answered DONE
(R35, R36). -/
def execAmendWritesComplete (s : State) : StepOutcome :=
  .next (match s.vau.amendJobs with
    | j :: rest =>
      let s := (s.landVau j.ticket).answer j.slot .done
      s.setVau { s.vau with amendJobs := rest }
    | [] => s)

/-! ### HAND DONE (R48, R49, R70) -/

/-- The foldout reasons (R47). -/
def Reason.foldout : Reason → Bool
  | .foldoutUnfold | .foldoutPanel | .foldoutRefold => true
  | _ => false

/-- The opening record after an accepted HAND DONE: for a foldout reason by R70, for a turning reason
the cursor named, FOLDED, panel 1, and the UNCERTAIN flag of the entry cleared (R49). -/
def Vau.handStepDone (v : Vau) (step : HandStep) (cursor : Nat) : Vau :=
  match step.reason with
  | .foldoutUnfold => { v with unfolded := true, nextPanel := 1 }
  | .foldoutPanel => { v with unfolded := true, nextPanel := v.nextPanel + 1 }
  | .foldoutRefold => { v with unfolded := false, nextPanel := 1 }
  | _ => (v.moveCursor cursor).setUncertain step.entry false

/-- An accepted HAND DONE (R49): the step cleared, the records written, the volume READY. -/
def State.acceptHandDone (s : State) (i : Fin 16) (step : HandStep) (cursor : Nat) : State :=
  let s := s.changeAccount (fun v => { v.handStepDone step cursor with step := none }) true
  let s : State := { s with
    occ := { s.occ with foldoutDone := step.reason == .foldoutRefold }
    vau := { s.vau with handJobs := s.vau.handJobs ++ [⟨i, s.host.serial⟩] } }
  s.enterRest .ready

/-- HAND DONE against the pending step (R48). -/
def State.handDone (s : State) (i : Fin 16) (reason cursor : Nat) : State :=
  match s.vau.vol, s.vau.step with
  | .opening, _ | .closing, _ => s.answer i .busy
  | .handWait, some step =>
    if reason ≠ step.reason.code then s.answer i .wrongStep [⟨68, 1, step.reason.code⟩]
    else if !step.reason.foldout && !inOpeningRange s.vau.plan cursor then
      s.answer i .badCursor [⟨70, 2, lastOpening s.vau.plan⟩]
    else s.acceptHandDone i step cursor
  | _, _ => s.answer i .notWaiting

/-- HAND_DONE: VAU takes the order (R48). -/
def execHandDone (s : State) : StepOutcome :=
  .next (match s.nextOrder .vau with
    | some (⟨i, .handDone r c⟩, s) => s.handDone i r c
    | _ => s)

/-- HAND_DONE_WRITES_COMPLETE: the writes of the earliest accepted HAND DONE complete and it is answered
DONE with the cursor in force (R49, log 27). -/
def execHandDoneWritesComplete (s : State) : StepOutcome :=
  .next (match s.vau.handJobs with
    | j :: rest =>
      let s := (s.landVau j.ticket).answer j.slot .done [⟨70, 2, s.vau.cursor⟩]
      s.setVau { s.vau with handJobs := rest }
    | [] => s)

/-! ### CLOSE VOLUME (R50 to R55) -/

/-- The sides neither CAPTURED nor EXEMPT (R50). -/
def Vau.incomplete (v : Vau) : Nat :=
  ((sidesOf v.mirror).filter (fun r => r.status != .captured && r.status != .exempt)).length

/-- The bytes of the closing sum (R53). A record read back at a resume with number 0 and a check value other than
0 (R30 keeps it as read) has check bytes by the byte rule of R53 and eight zero bytes by its sentence on a panel
with no accepted frame: that its check bytes are taken is the MODEL'S CHOICE (DESIGN CHOICE, log 45). -/
def panelBytes (mirror : List LedgerEntry) : List Byte :=
  (sidesOf mirror).flatMap (fun r => r.panels.flatMap (fun p => leBytes p.number 4 ++ leBytes p.check 4))

/-- The closing sum over the mirror (R53). -/
def Vau.closingSum (v : Vau) : Nat := (crc (panelBytes v.mirror)).toNat

/-- The last accepted-frame number (R51, step 3). -/
def Vau.lastFrame (v : Vau) : Nat := if v.nextFrame = 0 then 4294967295 else v.nextFrame - 1

/-- The values of the close record (R51, step 3). -/
def State.closeFields (s : State) (complete : Bool) : CloseFields where
  complete := complete
  totalTakes := ((sidesOf s.vau.mirror).map (·.takes)).sum
  volDose := s.ldu.volDose
  lastFrame := s.vau.lastFrame
  sum := s.vau.closingSum

/-- FBK has still to take the report or the release by which a reservation of the channel ends. Step 5 of CLOSING
waits for it, so that no bank holds a RESERVED descriptor, and no GRANTED bank a FILLED one, when a volume opens
(R143; log 29). -/
def State.unsettled (s : State) (c : Chan) : Bool := (s.fbk.get c).inbox.any FbkMsg.endsReservation

/-- A take keeps CLOSE VOLUME from passing (R50, step 3; log 12). -/
def State.closeBusy (s : State) : Bool :=
  s.takeOutstanding .left || s.takeOutstanding .right

/-- CLOSE VOLUME against the volume (R50); when it passes, CLOSING begins with its first step (R51). -/
def State.closeVolume (s : State) (i : Fin 16) (force : Bool) : State :=
  match s.vau.vol with
  | .noVolume => s.answer i .noVolume
  | .opening | .cycling | .closing => s.answer i .busy
  | .ready | .handWait =>
    if s.closeBusy then s.answer i .busy
    else if s.vau.incomplete ≠ 0 ∧ force = false then
      s.answer i .incomplete [⟨72, 2, s.vau.incomplete⟩]
    else
      let complete := s.vau.incomplete == 0
      let s := (s.setVau { s.vau with vol := .closing, step := none }).writeCloseValid 0
      s.setVau { s.vau with closeJob := some ⟨i, 1, complete, s.host.serial⟩ }

/-- CLOSE_VOLUME: VAU takes the order (R50). -/
def execCloseVolume (s : State) : StepOutcome :=
  .next (match s.nextOrder .vau with
    | some (⟨i, .closeVolume force⟩, s) => s.closeVolume i force
    | _ => s)

/-- A step of CLOSING begun: its writes are those issued so far (R51). -/
def State.closingStep (s : State) (j : CloseJob) (k : Nat) : State :=
  s.setVau { s.vau with closeJob := some { j with step := k, ticket := s.host.serial } }

/-- Step 5 of CLOSING (R51): VAU's volume-level items as after a reset, the dose accumulators cleared
(R99), the volume NO_VOLUME, and the order answered with the outcome and the closing sum. -/
def State.endClosing (s : State) (j : CloseJob) : State :=
  let sum := s.vau.closingSum
  let s := { s with
    vau := { Vau.reset with
      vol := s.vau.vol, openJob := s.vau.openJob, openWaiting := s.vau.openWaiting
      judgements := s.vau.judgements }
    ldu := { s.ldu with sideDose := [], volDose := 0 } }
  (s.enterRest .noVolume).answer j.slot .done [⟨68, 1, closeOutcome j.complete⟩, ⟨72, 4, sum⟩]

/-- A step of CLOSING that waits for events before it. The header write of step 2 completes after every ledger
write before it, so after the answers that wait for those (R51). The entry into NO_VOLUME hands over every bank
with a FILLED descriptor (R51, R143, R150), so it comes after the reports and releases that FBK has still to
take (log 29). -/
def State.closingHeld (s : State) (j : CloseJob) : Bool :=
  match j.step with
  | 1 | 3 => false
  | 2 => !(s.vau.amendJobs.isEmpty && s.vau.handJobs.isEmpty)
  | _ => s.unsettled .left || s.unsettled .right

/-- CLOSING_WRITE_COMPLETE: the writes of a step of CLOSING complete and the next step begins (R51). -/
def execClosingWriteComplete (s : State) : StepOutcome :=
  .next (match s.vau.closeJob with
    | none => s
    | some j =>
      if s.closingHeld j then s
      else
        let s := s.landVau j.ticket
        match j.step with
        | 1 => s.writeHeader.closingStep j 2
        | 2 => (s.writeCloseFields (s.closeFields j.complete)).closingStep j 3
        | 3 => (s.writeCloseValid 1).closingStep j 4
        | _ => s.endClosing j)

end Sys2Proof.Machine
end

