-- ==== Sys2Proof/Machine/Dispatch.lean ====
section
/-! DEFINITION. The dispatch of a command to its meaning: one arm for each constructor of `Instr`, in the
order of the opcode table. -/

namespace Sys2Proof.Machine

/-- The effect of a command on everything but the queue of commands. -/
def exec (i : Instr) (s : State) : Host.Outcome State Fault Refusal :=
  match i with
  | .powerOnReset park up down => Sys2Proof.Machine.execPowerOnReset park up down s
  | .controlReset enable => Sys2Proof.Machine.execControlReset enable s
  | .controlEnable v => Sys2Proof.Machine.execControlEnable v s
  | .post v => Sys2Proof.Machine.execPost v s
  | .slotReadComplete bytes => Sys2Proof.Machine.execSlotReadComplete bytes s
  | .answerWriteComplete slot => Sys2Proof.Machine.execAnswerWriteComplete slot s
  | .ack v => Sys2Proof.Machine.execAck v s
  | .noteClear v => Sys2Proof.Machine.execNoteClear v s
  | .noteMaskWrite v => Sys2Proof.Machine.execNoteMaskWrite v s
  | .baseWrite v => Sys2Proof.Machine.execBaseWrite v s
  | .grant v => Sys2Proof.Machine.execGrant v s
  | .registerWriteIgnored reg v => Sys2Proof.Machine.execRegisterWriteIgnored reg v s
  | .loadTables => Sys2Proof.Machine.execLoadTables s
  | .tableImagesRead image => Sys2Proof.Machine.execTableImagesRead image s
  | .sidebandSlotsClear c => Sys2Proof.Machine.execSidebandSlotsClear c s
  | .openVolume => Sys2Proof.Machine.execOpenVolume s
  | .sheetHeaderRead header => Sys2Proof.Machine.execSheetHeaderRead header s
  | .planRead entries closeRecord => Sys2Proof.Machine.execPlanRead entries closeRecord s
  | .ledgerReadComplete header entries => Sys2Proof.Machine.execLedgerReadComplete header entries s
  | .openingWritesComplete => Sys2Proof.Machine.execOpeningWritesComplete s
  | .amend => Sys2Proof.Machine.execAmend s
  | .amendWritesComplete => Sys2Proof.Machine.execAmendWritesComplete s
  | .handDone => Sys2Proof.Machine.execHandDone s
  | .handDoneWritesComplete => Sys2Proof.Machine.execHandDoneWritesComplete s
  | .closeVolume => Sys2Proof.Machine.execCloseVolume s
  | .closingWriteComplete => Sys2Proof.Machine.execClosingWriteComplete s
  | .advance => Sys2Proof.Machine.execAdvance s
  | .capture => Sys2Proof.Machine.execCapture s
  | .turn => Sys2Proof.Machine.execTurn s
  | .retake => Sys2Proof.Machine.execRetake s
  | .stop => Sys2Proof.Machine.execStop s
  | .reservationAnswer c => Sys2Proof.Machine.execReservationAnswer c s
  | .grantReport c => Sys2Proof.Machine.execGrantReport c s
  | .roomWatchExpiry => Sys2Proof.Machine.execRoomWatchExpiry s
  | .admissionAnswer => Sys2Proof.Machine.execAdmissionAnswer s
  | .armedAnswer c => Sys2Proof.Machine.execArmedAnswer c s
  | .fireAnswer => Sys2Proof.Machine.execFireAnswer s
  | .platenCompletion => Sys2Proof.Machine.execPlatenCompletion s
  | .turnCompletion => Sys2Proof.Machine.execTurnCompletion s
  | .lampFaultReport => Sys2Proof.Machine.execLampFaultReport s
  | .cameraFaultReport c => Sys2Proof.Machine.execCameraFaultReport c s
  | .judgementTaken c => Sys2Proof.Machine.execJudgementTaken c s
  | .admissionRequest => Sys2Proof.Machine.execAdmissionRequest s
  | .chargeWritesComplete => Sys2Proof.Machine.execChargeWritesComplete s
  | .abandonRequest => Sys2Proof.Machine.execAbandonRequest s
  | .fireRequest => Sys2Proof.Machine.execFireRequest s
  | .strobeEnd => Sys2Proof.Machine.execStrobeEnd s
  | .cancelRequest => Sys2Proof.Machine.execCancelRequest s
  | .abortRequest => Sys2Proof.Machine.execAbortRequest s
  | .interlockFall => Sys2Proof.Machine.execInterlockFall s
  | .openStringSense bank => Sys2Proof.Machine.execOpenStringSense bank s
  | .turnRequest => Sys2Proof.Machine.execTurnRequest s
  | .platenRequest => Sys2Proof.Machine.execPlatenRequest s
  | .tsqStop => Sys2Proof.Machine.execTsqStop s
  | .upSwitchCloses => Sys2Proof.Machine.execUpSwitchCloses s
  | .upSwitchOpens => Sys2Proof.Machine.execUpSwitchOpens s
  | .downSwitchCloses => Sys2Proof.Machine.execDownSwitchCloses s
  | .downSwitchOpens => Sys2Proof.Machine.execDownSwitchOpens s
  | .pressureReading counts => Sys2Proof.Machine.execPressureReading counts s
  | .edgeReached => Sys2Proof.Machine.execEdgeReached s
  | .burstEnd => Sys2Proof.Machine.execBurstEnd s
  | .vacuumSwitchCloses => Sys2Proof.Machine.execVacuumSwitchCloses s
  | .vacuumSwitchOpens => Sys2Proof.Machine.execVacuumSwitchOpens s
  | .readSettled reading => Sys2Proof.Machine.execReadSettled reading s
  | .sweepEnd => Sys2Proof.Machine.execSweepEnd s
  | .parkSwitchCloses => Sys2Proof.Machine.execParkSwitchCloses s
  | .parkSwitchOpens => Sys2Proof.Machine.execParkSwitchOpens s
  | .retryWindowExpiry => Sys2Proof.Machine.execRetryWindowExpiry s
  | .stageWatchExpiry => Sys2Proof.Machine.execStageWatchExpiry s
  | .cutDelayExpiry => Sys2Proof.Machine.execCutDelayExpiry s
  | .park => Sys2Proof.Machine.execPark s
  | .armRestore => Sys2Proof.Machine.execArmRestore s
  | .reservationRequest c => Sys2Proof.Machine.execReservationRequest c s
  | .unusableWriteComplete c => Sys2Proof.Machine.execUnusableWriteComplete c s
  | .releaseRequest c => Sys2Proof.Machine.execReleaseRequest c s
  | .descriptorFilled c => Sys2Proof.Machine.execDescriptorFilled c s
  | .armRequest c => Sys2Proof.Machine.execArmRequest c s
  | .endOfExposureNotice c => Sys2Proof.Machine.execEndOfExposureNotice c s
  | .frameHeader c takeId length => Sys2Proof.Machine.execFrameHeader c takeId length s
  | .bodyByte c b => Sys2Proof.Machine.execBodyByte c b s
  | .frameTrailer c check => Sys2Proof.Machine.execFrameTrailer c check s
  | .startMark c => Sys2Proof.Machine.execStartMark c s
  | .resultWriteComplete c => Sys2Proof.Machine.execResultWriteComplete c s
  | .frameWatchExpiry c => Sys2Proof.Machine.execFrameWatchExpiry c s
  | .sideband c type payload check => Sys2Proof.Machine.execSideband c type payload check s
  | .sidebandMalformed c type length => Sys2Proof.Machine.execSidebandMalformed c type length s
  | .strayBytes c bytes => Sys2Proof.Machine.execStrayBytes c bytes s
  | .readSideband => Sys2Proof.Machine.execReadSideband s
  | .sidebandCopy c => Sys2Proof.Machine.execSidebandCopy c s
  | .sidebandReportWritten c => Sys2Proof.Machine.execSidebandReportWritten c s
  | .descriptorReadComplete c bytes => Sys2Proof.Machine.execDescriptorReadComplete c bytes s
  | .cancelAnswer => Sys2Proof.Machine.execCancelAnswer s

end Sys2Proof.Machine
end

