-- ==== Sys2Proof/Safety.lean ====
section
/-! DEFINITION. What a sound state is: the laws of the device that the manual states about its state, as
properties of one state. Statements about every step carry them as premises and conclusions. -/

namespace Sys2Proof.Machine

/-- Host memory in its canonical form (log 4). -/
abbrev State.memoryCanonical (s : State) : Prop := Memory.wf s.host.mem

/-- The pending queue holds the PENDING slots, each once (R161, R162). -/
structure Exp.QueueExact (e : Exp) : Prop where
  nodup : e.queue.Nodup
  pending : ∀ i, i ∈ e.queue ↔ e.slot i = .pending

/-- The turn sequencer's items agree: the power relay is open exactly while the arm is DEAD (R77), a DEAD
arm has no turn and no PARK in flight, a turn in flight is in a stage, and stages and watches belong to
the work in flight (R77, R94). -/
structure Tsq.Coherent (t : Tsq) : Prop where
  relay : t.relayOpen = true ↔ t.arm = .dead
  dead : t.arm = .dead → t.work = .none ∨ t.work = .platen
  idle : t.work = .none → t.stage = none ∧ t.stageWatch = none ∧ t.cutWatch = none
  turn : ∀ c r, t.work = .turn c r → t.stage ≠ none
  wait : t.stage = some .waitDark → t.stageWatch = none
  park : ∀ i, t.work = .park i → t.stage = none ∧ t.cutWatch = none
  platen : t.work = .platen → t.stage = some .platenDown ∧ t.cutWatch = none
  cut : t.cutWatch.isSome → t.stage = some .retract

/-- The light unit's items agree: bank lit is true exactly in LIT, the record is empty exactly in IDLE,
and only a charge in flight is abandoned (R98, R102, R115, R117). -/
structure Ldu.Coherent (l : Ldu) : Prop where
  lit : l.bankLit = true ↔ l.state = .lit
  record : l.record = none ↔ l.state = .idle
  abandoned : l.abandoned = true → l.state = .charging

/-- The volume dose is never less than the sum of the side doses (R29, R99). -/
def Ldu.DoseLaw (l : Ldu) : Prop := doseSum l.sideDose ≤ l.volDose

/-- A side is CAPTURED only when every panel record of its list holds an accepted frame number (R41). -/
def SideRec.CaptureLaw (r : SideRec) : Prop := r.status = .captured → r.complete = true

/-- The law of R41 for every side of the mirror. -/
def Vau.CaptureLaw (v : Vau) : Prop := ∀ e ∈ v.mirror, e.verso.CaptureLaw ∧ e.recto.CaptureLaw

/-- The number of a recorded panel lies below the next accepted-frame number, until the numbers are exhausted:
so no number is given twice (R31, R40). -/
structure Vau.NumberLaw (v : Vau) : Prop where
  width : v.nextFrame < 2 ^ 32
  below : v.nextFrame = 0 ∨
    ∀ e ∈ v.mirror, ∀ p ∈ e.verso.panels ++ e.recto.panels, p.number < v.nextFrame

/-- OPEN VOLUME is in its first part: nothing is installed yet (R26). -/
def OpenPhase.first : OpenPhase → Bool
  | .header | .plan _ => true
  | .ledger | .writes _ => false

/-- The volume state agrees with what is in flight: a cycle order in CYCLING, a hand step in HAND_WAIT, a
close in CLOSING, the second part of an OPEN VOLUME in OPENING, the first part only in NO_VOLUME; and OCC
works only for an order (R18, R26, R28, R47, R50, R57, R58). -/
structure State.VolumeCoherent (s : State) : Prop where
  order : s.occ.order.isSome ↔ s.vau.vol = .cycling
  work : s.occ.work ≠ .none → s.occ.order.isSome
  step : s.vau.step.isSome ↔ s.vau.vol = .handWait
  close : s.vau.closeJob.isSome ↔ s.vau.vol = .closing
  openFirst : ∀ j, s.vau.openJob = some j → j.phase.first → s.vau.vol = .noVolume
  openSecond : (∃ j, s.vau.openJob = some j ∧ j.phase.first = false) ↔ s.vau.vol = .opening

/-- The law of the interlock (R80, R81): the items of the sequencer and of the light unit agree; ready to light
is false while a stage of the turn or a watched motion runs; and a bank is lit in no stage but PLATEN_DOWN. -/
structure State.InterlockLaw (s : State) : Prop where
  tsq : s.tsq.Coherent
  ldu : s.ldu.Coherent
  motion : ∀ g, s.tsq.stage = some g → g ≠ .waitDark → s.tsq.ready = false
  watched : s.tsq.stageWatch.isSome → s.tsq.ready = false
  dark : s.ldu.bankLit = true →
    s.tsq.stage = none ∨ s.tsq.stage = some .waitDark ∨ s.tsq.stage = some .platenDown

/-! ### Writes to host memory -/

/-- A write covers the byte at an address. -/
def HostWrite.Covers (w : HostWrite) (a : Nat) : Prop := w.addr ≤ a ∧ a < w.addr + w.bytes.length

/-- k is h after the writes in flight that `p` names have completed, in the order of their issue: each byte that
one of them covers holds what the last of them left there, every other byte is as it was, and the other
writes are still in flight (R36, R114, R135, R166). -/
structure HostSide.Completed (h : HostSide) (p : HostWrite → Bool) (k : HostSide) : Prop where
  other : ∀ a, (∀ w ∈ h.inFlight, p w = true → ¬ w.Covers a) → Memory.read k.mem a = Memory.read h.mem a
  stand : ∀ b w c, h.inFlight.filter p = b ++ w :: c → ∀ i, i < w.bytes.length →
    (∀ x ∈ c, ¬ x.Covers (w.addr + i)) → Memory.read k.mem (w.addr + i) = w.bytes[i]?
  left : k.inFlight = h.inFlight.filter (fun w => !p w)
  serial : k.serial = h.serial

/-- h with writes issued by w in the order given, each an address with its bytes. -/
def HostSide.issued (h : HostSide) (w : Writer) (ws : List (Nat × List Byte)) : HostSide :=
  { h with
    inFlight := h.inFlight ++ mapFrom (fun n x => HostWrite.mk w n x.1 x.2) h.serial ws
    serial := h.serial + ws.length }

/-- The write of an answer: bytes 64 to 127 of the slot in the area of BASE (R166). -/
def HostSide.answered (h : HostSide) (base : Word32) (i : Fin 16) (code : AnswerCode)
    (fields : List FieldVal) : HostSide :=
  h.issued (.slotAnswer i) [(base.toNat * 4096 + 128 * i.val + 64, answerBytes code fields)]

/-- VAU's part of entry e after the opening: every byte but the dose fields at 20 to 23 and 92 to 95 (R173,
Table 11-10). -/
def entryParts (base : Word32) (e : Nat) (x : LedgerEntry) : List (Nat × List Byte) :=
  let a := base.toNat * 4096 + 0x8100 + 192 * e
  [(a, slice (entryBytes x) 0 20), (a + 24, slice (entryBytes x) 24 92), (a + 96, slice (entryBytes x) 96 192)]

/-- VAU's part of the ledger header: every byte but the volume dose at 16 to 23 (R173, Table 11-9). -/
def headerParts (base : Word32) (v : Vau) : List (Nat × List Byte) :=
  let a := base.toNat * 4096 + 0x8000
  [(a, slice (headerBytes v 0) 0 16), (a + 24, slice (headerBytes v 0) 24 256)]

/-- The writes that a change of the account from v to w issues: each entry that changed, in plan order, and then
the header, where the rule of the change asks for it (`always`) or the cursor, the next accepted-frame number
or a side status changed (R36, R37). -/
def ledgerWrites (base : Word32) (v w : Vau) (always : Bool) : List (Nat × List Byte) :=
  ((List.range w.mirror.length).filter (fun e => v.mirror[e]? != w.mirror[e]?)).flatMap
      (fun e => entryParts base e (w.entry e))
    ++ if always || v.cursor != w.cursor || v.nextFrame != w.nextFrame
        || v.mirror.map (fun x => (x.verso.status, x.recto.status))
          != w.mirror.map (fun x => (x.verso.status, x.recto.status))
      then headerParts base w else []

/-- A record of n bytes from offset o: each field (offset, width, value) least significant byte first, and every
other byte 0 (section 4.1, R173). -/
def LaidOut (o n : Nat) (b : List Byte) (fields : List (Nat × Nat × Nat)) : Prop :=
  b.length = n
  ∧ (∀ f ∈ fields, ∀ k, k < f.2.1 → b[f.1 - o + k]? = some (BitVec.ofNat 8 (f.2.2 / 256 ^ k)))
  ∧ ∀ i, i < n → (∀ f ∈ fields, i + o < f.1 ∨ f.1 + f.2.1 ≤ i + o) → b[i]? = some 0

/-- A command that resets the controller: power-on, or a CONTROL write with RESET 1 (section 4.5). -/
def resets : Instr → Bool
  | .powerOnReset .. | .controlReset _ => true
  | .controlEnable v => v.getLsbD 1
  | _ => false

end Sys2Proof.Machine
end

