-- ==== Sys2Proof/Certificates/Slice0/Obligations.lean ====
section
/-! DEFINITION. The statements for the provers, chapter by chapter. Each `Obligations.<Name>` is one
entry of OBLIGATIONS.json. A next state is written as the state before with the blocks that change, so
that what is not named there, host memory and the queue of commands included, is unchanged. -/

open Sys2Proof Sys2Proof.Machine

/-! ### The machine -/

/-- One step is `exec` of the command at the front of the queue on the state with the queue's rest. That an
empty queue idles is the model's choice (log 2). -/
def Obligations.StepRunsTheFrontCommand : Prop :=
  (∀ (c : Instr) (rest : List Instr) (s : State), s.pending = c :: rest →
    step s = exec c (s.withPending rest))
  ∧ (∀ (c : Instr) (s : State), step (s.withPending (c :: s.pending)) = exec c s)
  ∧ (∀ s : State, s.pending = [] → step s = .next s)

/-- Every command answers a next state in every state: none ends in a fault or a refusal, and none touches the
queue of commands. That a command whose event nothing in the state can have caused answers a next state too, the
state left as it is, is the model's choice (log 1). -/
def Obligations.EveryCommandAnswersNext : Prop :=
  ∀ (c : Instr) (s : State), ∃ t, exec c s = .next t ∧ t.pending = s.pending

/-! ### The resets (section 4.5) -/

/-- The profile of an EMPTY store: every field zero (R1). -/
def emptyProfile : Profile :=
  let kind : KindParams := ⟨0, [0, 0, 0, 0], 0, 0⟩
  { board := kind, text := kind, plate := kind, tissue := kind, foldout := kind
    budget := 0, tMin := 0, reserve := 0, doseMode := .unset, attemptLimit := 0, retryClass := 0
    platenClass := 0, armClass := 0, liftClass := 0, frameClass := 0, roomClass := 0, stallAction := .unset
    cutCode := 0, pressureLimit := 0, autoLimit := 0, wait := false, gate := 0, minFocus := 0 }

/-- What both resets set alike, item by item: R1, R18, R47, R57, R77, R98, R124, R143, R152, R161. Where the
rule of a block gives an item no value of its own (the model's inboxes and jobs, the key and the text of no
volume, the counts of a frame not begun) the value is the model's (logs 30, 31). -/
def resetValues (t : State) : Prop :=
  (∀ i, t.exp.slot i = .free) ∧ t.exp.queue = [] ∧ t.exp.take = none ∧ t.exp.note = 0
  ∧ t.exp.noteMask = 0 ∧ t.exp.enable = false ∧ t.exp.baseRefused = false ∧ t.exp.lastMispost = 0
  ∧ t.exp.orders = [] ∧ t.exp.int = false
  ∧ t.pfs = {
      loaded := false, classes := List.replicate 16 ⟨false, 0, 0, 0⟩, profiles := List.replicate 8 emptyProfile
      cradle := ⟨[0, 0, 0, 0], 0, false, 0,
        ⟨⟨[0, 0, 0, 0], [false, false, false, false]⟩, ⟨[0, 0, 0, 0], [false, false, false, false]⟩⟩⟩
      job := none, waiting := [] }
  ∧ (∀ k, t.pfs.lookup k = none)
  ∧ t.vau = {
      vol := .noVolume, plan := [], key := 0, part := 0, text := List.replicate 32 0, profile := none
      cursor := 0, unfolded := false, nextPanel := 1, nextFrame := 0, mirror := [], step := none
      openJob := none, openWaiting := [], amendJobs := [], handJobs := [], closeJob := none, judgements := [] }
  ∧ t.occ = {
      order := none, turnsLeft := 0, turnsMade := 0, takesMade := 0, auto := [], retakes := []
      pendingPause := none, foldoutDone := false, roomWatch := none, work := .none, todo := []
      held := ⟨none, none⟩, releasing := ⟨false, false⟩, awaiting := ⟨false, false⟩, stops := []
      outcome := none, inbox := [] }
  ∧ (∀ e side, t.occ.autoCount e side = 0)
  ∧ t.tsq.work = .none ∧ t.tsq.stage = none ∧ t.tsq.attempts = 0 ∧ t.tsq.heavy = 0 ∧ t.tsq.level = 0
  ∧ t.tsq.windowClosed = false ∧ t.tsq.failure = none ∧ t.tsq.stopTaken = false
  ∧ t.tsq.turnedBack = false ∧ t.tsq.inbox = []
  ∧ t.tsq.retryWatch = none ∧ t.tsq.stageWatch = none ∧ t.tsq.cutWatch = none
  ∧ t.ldu = {
      retired := 0, sideDose := [], volDose := 0, state := .idle, record := none, bankLit := false
      abandoned := false, fall := false, inbox := [] }
  ∧ (∀ e side, t.ldu.dose e side = 0)
  ∧ (∀ c, t.cch.get c = {
      state := .idle, takeId := 0, lastDone := none, syncPending := true, lost := 0, take := none
      received := 0, written := 0, crc := 0, frameWatch := none, intake := .between
      result := none, slots := (t.cch.get c).slots, arms := [], notices := [], sent := [] }
      ∧ ∀ k, (t.cch.get c).slot k = {
          type := 0, storeOnError := false, valid := false, checkError := false, age := 0
          received := false, length := 0, payload := List.replicate 24 0 })
  ∧ t.sideband = ⟨none, []⟩
  ∧ (∀ c b, ((t.fbk.get c).bank b).granted = false ∧ (∀ k, ((t.fbk.get c).bank b).desc k = .free)
      ∧ (t.fbk.get c).active = .bankA ∧ (t.fbk.get c).owed = false ∧ (t.fbk.get c).search = none
      ∧ (t.fbk.get c).inbox = [])
  ∧ t.host.inFlight = []

/-- POWER_ON_RESET: every block at its reset values, BASE 0, the cause POWER_ON, the relay closed, the
vacuum OFF, and the arm and the platen as the three position switches show them (R77, R161). CONTROL_RESET,
and a CONTROL write with RESET 1: the same, but BASE is kept, the cause is CONTROLLER, a vacuum that was ON
is HELD_AFTER_RESET and another is kept, and a DEAD arm stays DEAD with its relay open (R78, R171). It is the
model's choice that the platen state is taken from its switches under a DEAD arm too (log 40), and that the foot
is lowered after power-on and kept over a controller reset (log 43). -/
def Obligations.ResetsSetEveryBlock : Prop :=
  (∀ (park up down : Bool) (s : State), ∃ t, exec (.powerOnReset park up down) s = .next t
    ∧ resetValues t ∧ t.exp.base = 0 ∧ t.exp.cause = .powerOn
    ∧ t.tsq.arm = (if park then .parked else .unknown) ∧ t.tsq.vacuum = .off
    ∧ t.tsq.foot = .lowered ∧ t.tsq.relayOpen = false
    ∧ (up = true → down = false → t.tsq.platen = .up)
    ∧ (up = false → down = true → t.tsq.platen = .down)
    ∧ (up = down → t.tsq.platen = .unknown)
    ∧ t.pending = s.pending)
  ∧ (∀ (c : Instr) (s : State),
    ((∃ e, c = .controlReset e) ∨ ∃ v : Word32, c = .controlEnable v ∧ v.getLsbD 1 = true) →
    ∃ t, exec c s = .next t
      ∧ resetValues t ∧ t.exp.base = s.exp.base ∧ t.exp.cause = .controller
      ∧ (s.tsq.vacuum = .on → t.tsq.vacuum = .heldAfterReset)
      ∧ (s.tsq.vacuum ≠ .on → t.tsq.vacuum = s.tsq.vacuum) ∧ t.tsq.foot = s.tsq.foot
      ∧ (s.tsq.arm = .dead → t.tsq.arm = .dead) ∧ t.tsq.relayOpen = s.tsq.relayOpen
      ∧ (s.tsq.arm ≠ .dead → t.tsq.arm = if s.tsq.parkSw then .parked else .unknown)
      ∧ t.tsq.platen = (if s.tsq.upSw && !s.tsq.downSw then .up
          else if s.tsq.downSw && !s.tsq.upSw then .down else .unknown)
      ∧ t.tsq.parkSw = s.tsq.parkSw ∧ t.tsq.upSw = s.tsq.upSw ∧ t.tsq.downSw = s.tsq.downSw
      ∧ t.pending = s.pending)

/-- A controller reset writes nothing to host memory of its own: a byte either reads as before, or as one of
the writes that were in flight left it (R56, R98, R140, R143, R159, R171). Which bytes reach memory is the
free value `Config.byteReaches` (log 6), of which the statement uses nothing. One byte is settled: a
controller reset in CLOSING leaves the closing-sum-valid flag as it stands (R55), for writes in flight that
reach it only as writes of that byte alone, as R51 issues them. That the same holds of host memory over
POWER_ON_RESET is the model's choice (log 36). -/
def Obligations.ResetCutsWritesInFlight : Prop :=
  ∀ (c : Instr) (s t : State), resets c = true → exec c s = .next t →
    t.host.inFlight = []
    ∧ (∀ a, Memory.read t.host.mem a = Memory.read s.host.mem a
        ∨ ∃ w ∈ s.host.inFlight, ∃ i, i < w.bytes.length ∧ a = w.addr + i
            ∧ Memory.read t.host.mem a = w.bytes[i]?)
    ∧ (let flag := s.exp.base.toNat * 4096 + 0x1000 + 38
      (∀ park up down, c ≠ .powerOnReset park up down) → s.vau.vol = .closing →
      (∀ w ∈ s.host.inFlight, w.Covers flag → w.writer = .vau ∧ w.addr = flag ∧ w.bytes.length = 1) →
      Memory.read t.host.mem flag = Memory.read s.host.mem flag)

/-! ### The exchange port (chapter 10) -/

/-- POST (R162): the FREE slots named join the queue in ascending number and become PENDING; every other
slot named is a mispost, which raises NOTE.MISPOST and leaves the highest in last mispost. A take may then
begin (R163), as `TakeBegins` says. A write that names no slot changes nothing where no take can begin; a
queue that holds each slot once goes on so; POST reads as the mask of the PENDING slots; and of a POST and
an ACK of one ANSWERED slot, the ACK first posts the slot, and the POST first is a mispost that the ACK
then frees. -/
def Obligations.PostJoinsTheQueue : Prop :=
  (∀ (v : Word32) (s : State), ∃ e : Exp, exec (.post v) s = .next { s with exp := e.tryTake }
    ∧ (∀ i, e.slot i = if v.getLsbD i.val = true ∧ s.exp.slot i = .free then .pending else s.exp.slot i)
    ∧ e.queue = s.exp.queue
        ++ (List.finRange 16).filter (fun i => v.getLsbD i.val && s.exp.slot i == .free)
    ∧ ((∀ i : Fin 16, v.getLsbD i.val = true → s.exp.slot i = .free) →
        e.note = s.exp.note ∧ e.lastMispost = s.exp.lastMispost)
    ∧ (∀ i : Fin 16, v.getLsbD i.val = true → s.exp.slot i ≠ .free →
        (∀ j : Fin 16, i < j → v.getLsbD j.val = true → s.exp.slot j = .free) →
        e.note = s.exp.note ||| 0x20 ∧ e.lastMispost = i)
    ∧ e = { s.exp with slots := e.slots, queue := e.queue, note := e.note, lastMispost := e.lastMispost }
    ∧ (s.exp.queue.Nodup → (∀ i ∈ s.exp.queue, s.exp.slot i = .pending) →
        e.queue.Nodup ∧ ∀ i ∈ e.queue, e.slot i = .pending))
  ∧ (∀ (v : Word32) (s : State), (∀ i : Fin 16, v.getLsbD i.val = false) →
      (s.exp.enable = false ∨ s.exp.take ≠ none ∨ s.exp.queue = []) → exec (.post v) s = .next s)
  ∧ (∀ (s : State) (i : Fin 16),
      (s.readRegister .post).getLsbD i.val = true ↔ s.exp.slot i = .pending)
  ∧ (∀ (s : State) (k : Nat), 16 ≤ k → (s.readRegister .post).getLsbD k = false)
  ∧ (∀ (v w : Word32) (i : Fin 16) (s t u : State), v.getLsbD i.val = true → w.getLsbD i.val = true →
      s.exp.slot i = .answered → exec (.ack w) s = .next t → exec (.post v) t = .next u →
      t.exp.slot i = .free
      ∧ (u.exp.slot i = .pending ∧ i ∈ u.exp.queue ∨ u.exp.slot i = .taken ∧ u.exp.take = some i))
  ∧ (∀ (v w : Word32) (i : Fin 16) (s t u : State), v.getLsbD i.val = true → w.getLsbD i.val = true →
      s.exp.slot i = .answered → i ∉ s.exp.queue →
      exec (.post v) s = .next t → exec (.ack w) t = .next u →
      t.exp.slot i = .answered ∧ t.exp.note.getLsbD Note.mispost.bit = true ∧ u.exp.slot i = .free)

/-- R163: the slot at the head of the queue is taken exactly when ENABLE is 1, no take is in progress and
the queue is not empty; it becomes TAKEN and leaves the queue (R164). A CONTROL write without RESET sets
ENABLE and then applies this test. -/
def Obligations.TakeBegins : Prop :=
  (∀ (e : Exp) (i : Fin 16) (rest : List (Fin 16)),
    e.enable = true → e.take = none → e.queue = i :: rest →
      e.tryTake.take = some i ∧ e.tryTake.queue = rest ∧ e.tryTake.slot i = .taken
      ∧ (∀ j, j ≠ i → e.tryTake.slot j = e.slot j)
      ∧ e.tryTake = { e with slots := e.tryTake.slots, take := some i, queue := rest })
  ∧ (∀ e : Exp, (e.enable = false ∨ e.take ≠ none ∨ e.queue = []) → e.tryTake = e)
  ∧ (∀ (v : Word32) (s : State), v.getLsbD 1 = false →
      exec (.controlEnable v) s
        = .next { s with exp := Exp.tryTake { s.exp with enable := v.getLsbD 0 } })

/-- SLOT_READ_COMPLETE (R164): the TAKEN status is written to byte 64 of the slot; an order that passes is
dispatched, and one that fails is answered BAD_ORDER by the port itself in bytes 64 to 127; the take ends
and the next one may begin. -/
def Obligations.SlotReadDispatches : Prop :=
  ∀ (i : Fin 16) (b : List Byte) (s : State), s.exp.take = some i →
    ∃ t, exec (.slotReadComplete b) s = .next t
      ∧ t = { s with exp := t.exp, host := t.host } ∧ t.host.mem = s.host.mem
      ∧ (∀ o, parseOrder b = some o →
          t.exp = Exp.tryTake { s.exp with take := none, orders := s.exp.orders ++ [Dispatched.mk i o] }
          ∧ t.host.inFlight = s.host.inFlight
              ++ [⟨.slotStatus i, s.host.serial, s.exp.base.toNat * 4096 + 128 * i.val + 64, [1]⟩])
      ∧ (parseOrder b = none →
          t.exp = Exp.tryTake { s.exp with take := none }
          ∧ t.host.inFlight = s.host.inFlight
              ++ [⟨.slotStatus i, s.host.serial, s.exp.base.toNat * 4096 + 128 * i.val + 64, [1]⟩,
                  ⟨.slotAnswer i, s.host.serial + 1, s.exp.base.toNat * 4096 + 128 * i.val + 64,
                    2 :: 2 :: List.replicate 62 0⟩])

/-- The form check of R165, with the order parts of Table 11-3: BAD_ORDER is given exactly when the kind is
none of the thirteen, a reserved byte is not 0, a flag of CLOSE VOLUME or PARK is neither 0 nor 1, the n
of ADVANCE lies outside 1 to 1,024, or RETAKE names no side or a panel outside 1 to 8. An order that passes
is the kind's order with the parameters at their bytes. -/
def Obligations.BadOrderExactly : Prop :=
  (∀ (b : List Byte) (o : Order), parseOrder b = some o →
    (byteAt b 0 = 1 → o = .loadTables)
    ∧ (byteAt b 0 = 2 → o = .openVolume)
    ∧ (byteAt b 0 = 3 → o = .amend (leNat b 4 2) (byteAt b 6))
    ∧ (byteAt b 0 = 4 → o = .handDone (byteAt b 4) (leNat b 6 2))
    ∧ (byteAt b 0 = 5 → o = .closeVolume (byteAt b 4 == 1))
    ∧ (byteAt b 0 = 6 → o = .advance (leNat b 4 2))
    ∧ (byteAt b 0 = 7 → o = .capture)
    ∧ (byteAt b 0 = 8 → o = .turn)
    ∧ (byteAt b 0 = 9 →
      o = .retake (leNat b 4 2) (if byteAt b 6 = 1 then .verso else .recto) (byteAt b 7))
    ∧ (byteAt b 0 = 10 → o = .stop)
    ∧ (byteAt b 0 = 11 → o = .park (byteAt b 4 == 1))
    ∧ (byteAt b 0 = 12 → o = .armRestore)
    ∧ (byteAt b 0 = 13 → o = .readSideband))
  ∧ ∀ b : List Byte, parseOrder b = none ↔
    (byteAt b 0 = 0 ∨ 13 < byteAt b 0)
    ∨ (∃ i, 1 ≤ i ∧ i < 64 ∧ byteAt b i ≠ 0
        ∧ i ∉ (match byteAt b 0 with
            | 3 => [4, 5, 6]
            | 4 => [4, 6, 7]
            | 5 | 11 => [4]
            | 6 => [4, 5]
            | 9 => [4, 5, 6, 7]
            | _ => []))
    ∨ ((byteAt b 0 = 5 ∨ byteAt b 0 = 11) ∧ 1 < byteAt b 4)
    ∨ (byteAt b 0 = 6 ∧ (leNat b 4 2 = 0 ∨ 1024 < leNat b 4 2))
    ∨ (byteAt b 0 = 9 ∧ (byteAt b 6 = 0 ∨ 2 < byteAt b 6 ∨ byteAt b 7 = 0 ∨ 8 < byteAt b 7))

/-- ANSWER_WRITE_COMPLETE (R166): the slot becomes ANSWERED with its bit, NOTE.ANSWER is raised, and the
port's writes to that slot complete in the order issued, so that after the TAKEN status and the answer write
byte 64 holds ANSWERED and byte 65 the code; no other byte of host memory changes. -/
def Obligations.AnswerWriteCompletes : Prop :=
  ∀ (i : Fin 16) (s : State), s.exp.slot i = .taken → s.hasInFlight (.slotAnswer i) = true →
    ∃ t, exec (.answerWriteComplete i) s = .next t
      ∧ t.exp.slot i = .answered ∧ (∀ j, j ≠ i → t.exp.slot j = s.exp.slot j)
      ∧ t.exp = { s.exp with slots := t.exp.slots, note := s.exp.note ||| 1 }
      ∧ (t.readRegister .answered).getLsbD i.val = true
      ∧ s.host.Completed (fun w => w.writer == .slotStatus i || w.writer == .slotAnswer i) t.host
      ∧ (∀ b n code fields, s.host.inFlight.filter
            (fun w => w.writer == .slotStatus i || w.writer == .slotAnswer i)
          = b ++ [⟨.slotAnswer i, n, s.exp.base.toNat * 4096 + 128 * i.val + 64, answerBytes code fields⟩] →
        (∀ f ∈ fields, 66 ≤ f.offset ∧ f.offset + f.width ≤ 128) →
        Memory.read t.host.mem (s.exp.base.toNat * 4096 + 128 * i.val + 64) = some 2
        ∧ Memory.read t.host.mem (s.exp.base.toNat * 4096 + 128 * i.val + 65) = some (BitVec.ofNat 8 code.code)
        ∧ ∀ k, k < 64 → Memory.read t.host.mem (s.exp.base.toNat * 4096 + 128 * i.val + 64 + k)
            = (answerBytes code fields)[k]?)
      ∧ t = { s with exp := t.exp, host := t.host }

/-- ACK (R167): each ANSWERED slot named becomes FREE and its bit is cleared, every other bit is ignored,
and nothing else changes: no note, no byte of host memory. An ACK taken after the completion of the
slot's answer write frees the slot; one taken before it finds the slot TAKEN, and the slot then becomes
ANSWERED. -/
def Obligations.AckFreesAnsweredSlots : Prop :=
  (∀ (v : Word32) (s : State), ∃ t, exec (.ack v) s = .next t
    ∧ t = { s with exp := { s.exp with slots := t.exp.slots } }
    ∧ (∀ i, t.exp.slot i
        = if v.getLsbD i.val = true ∧ s.exp.slot i = .answered then .free else s.exp.slot i)
    ∧ (∀ i : Fin 16, v.getLsbD i.val = true → (t.readRegister .answered).getLsbD i.val = false))
  ∧ (∀ (v : Word32) (i : Fin 16) (s t u : State), v.getLsbD i.val = true → s.exp.slot i = .taken →
      s.hasInFlight (.slotAnswer i) = true →
      exec (.answerWriteComplete i) s = .next t → exec (.ack v) t = .next u → u.exp.slot i = .free)
  ∧ (∀ (v : Word32) (i : Fin 16) (s t u : State), v.getLsbD i.val = true → s.exp.slot i = .taken →
      s.hasInFlight (.slotAnswer i) = true →
      exec (.ack v) s = .next t → exec (.answerWriteComplete i) t = .next u →
      t.exp.slot i = .taken ∧ u.exp.slot i = .answered)

/-- The law of the device for the order slots (R161, R162, R166): every step keeps the pending queue as the
PENDING slots, each once; and over every step of such a state a slot becomes ANSWERED only from TAKEN, by
the completion of its own answer write, and leaves ANSWERED only for FREE, by an ACK of that slot or a
reset. -/
def Obligations.AnsweredMaskLaw : Prop :=
  ∀ s t : State, s.exp.QueueExact → step s = .next t →
    t.exp.QueueExact
    ∧ ∀ i : Fin 16,
      (t.exp.slot i = .answered → s.exp.slot i = .answered
        ∨ (s.exp.slot i = .taken ∧ s.pending.head? = some (.answerWriteComplete i)))
      ∧ (s.exp.slot i = .answered → t.exp.slot i ≠ .answered →
          t.exp.slot i = .free ∧ ∃ c, s.pending.head? = some c
            ∧ (resets c = true ∨ ∃ v : Word32, c = .ack v ∧ v.getLsbD i.val = true))

/-- The registers read as the state stands in the event of the read (R161, R162, R172, R174): POST and ANSWERED
as the masks of the PENDING and the ANSWERED slots, CONTROL as ENABLE, BASE as written, and STATUS field by
field with the codes of section 11.8; every bit that Table 11-14 does not name reads as 0. BASE_WRITE (R170) is accepted with no volume open and
every slot FREE, and refused otherwise. A write to STATUS, or to bits that a register does not name, changes
nothing. -/
def Obligations.RegistersReadAndWrite : Prop :=
  (∀ (v : Word32) (s : State),
    (s.vau.vol = .noVolume → (∀ i, s.exp.slot i = .free) →
      exec (.baseWrite v) s = .next { s with exp := { s.exp with base := v, baseRefused := false } })
    ∧ ((s.vau.vol ≠ .noVolume ∨ ∃ i, s.exp.slot i ≠ .free) →
      exec (.baseWrite v) s = .next { s with exp := { s.exp with baseRefused := true } }))
  ∧ (∀ (r : Reg) (v : Word32) (s : State), exec (.registerWriteIgnored r v) s = .next s)
  ∧ ∀ s : State,
    (∀ i : Fin 16, (s.readRegister .post).getLsbD i.val = (s.exp.slot i == .pending)
      ∧ (s.readRegister .answered).getLsbD i.val = (s.exp.slot i == .answered))
    ∧ (∀ k, 16 ≤ k → (s.readRegister .post).getLsbD k = false
        ∧ (s.readRegister .answered).getLsbD k = false)
    ∧ (s.readRegister .control).getLsbD 0 = s.exp.enable
    ∧ (∀ k, 1 ≤ k → (s.readRegister .control).getLsbD k = false)
    ∧ s.readRegister .base = s.exp.base
    ∧ (s.readRegister .status).extractLsb' 0 3 = BitVec.ofNat 3 s.vau.vol.code
    ∧ (s.readRegister .status).getLsbD 3 = false
    ∧ (s.readRegister .status).extractLsb' 4 3 = BitVec.ofNat 3 s.tsq.arm.code
    ∧ (s.readRegister .status).getLsbD 7 = false
    ∧ (s.readRegister .status).extractLsb' 8 2 = BitVec.ofNat 2 s.tsq.vacuum.code
    ∧ (s.readRegister .status).extractLsb' 10 2 = 0
    ∧ (s.readRegister .status).extractLsb' 12 3 = BitVec.ofNat 3 s.tsq.platen.code
    ∧ (s.readRegister .status).getLsbD 15 = false
    ∧ (s.readRegister .status).getLsbD 16 = s.pfs.loaded
    ∧ (s.readRegister .status).getLsbD 17 = (s.exp.cause == .controller)
    ∧ (s.readRegister .status).getLsbD 18 = s.exp.baseRefused
    ∧ (s.readRegister .status).getLsbD 19 = false
    ∧ (s.readRegister .status).extractLsb' 20 4 = BitVec.ofNat 4 s.exp.lastMispost.val
    ∧ (s.readRegister .status).extractLsb' 24 8 = 0
    ∧ (s.readRegister .note).extractLsb' 0 7 = s.exp.note
    ∧ (s.readRegister .noteMask).extractLsb' 0 7 = s.exp.noteMask
    ∧ (∀ k, 7 ≤ k → (s.readRegister .note).getLsbD k = false
        ∧ (s.readRegister .noteMask).getLsbD k = false)
    ∧ (s.readRegister .grant).getLsbD 0 = s.fbk.left.bankA.granted
    ∧ (s.readRegister .grant).getLsbD 1 = s.fbk.left.bankB.granted
    ∧ (s.readRegister .grant).getLsbD 2 = s.fbk.right.bankA.granted
    ∧ (s.readRegister .grant).getLsbD 3 = s.fbk.right.bankB.granted
    ∧ (∀ k, 4 ≤ k → (s.readRegister .grant).getLsbD k = false)
    ∧ [VolState.noVolume, .opening, .ready, .cycling, .handWait, .closing].map (·.code) = [0, 1, 2, 3, 4, 5]
    ∧ [Arm.parked, .moving, .held, .unknown, .dead].map (·.code) = [0, 1, 2, 3, 4]
    ∧ [Vacuum.off, .on, .heldAfterReset].map (·.code) = [0, 1, 2]
    ∧ [Platen.up, .down, .contact, .moving, .unknown].map (·.code) = [0, 1, 2, 3, 4]

/-- R168: a NOTE write clears each note whose bit is 1, leaves each note whose bit is 0, and changes nothing
else; and a note that is raised stays raised over every step but a reset or a NOTE write with its bit. -/
def Obligations.NotesStayUntilCleared : Prop :=
  (∀ (v : Word32) (s : State), ∃ t, exec (.noteClear v) s = .next t
    ∧ t = { s with exp := { s.exp with note := t.exp.note } }
    ∧ (∀ n : Note, t.exp.note.getLsbD n.bit = (s.exp.note.getLsbD n.bit && !v.getLsbD n.bit))
    ∧ ∀ k, 7 ≤ k → (t.readRegister .note).getLsbD k = false)
  ∧ (∀ (s t : State) (n : Note), step s = .next t →
    s.exp.note.getLsbD n.bit = true → t.exp.note.getLsbD n.bit = false →
    ∃ c, s.pending.head? = some c
      ∧ (resets c = true ∨ ∃ v : Word32, c = .noteClear v ∧ v.getLsbD n.bit = true))

/-- R169: a NOTE_MASK write sets every enable to the value written, the bits that name no note are ignored
and read as 0, and INT is asserted exactly while a note is raised with its enable set, in the state that
each event leaves. -/
def Obligations.NoteMaskDrivesInt : Prop :=
  (∀ (v : Word32) (s : State), ∃ t, exec (.noteMaskWrite v) s = .next t
    ∧ t = { s with exp := { s.exp with noteMask := t.exp.noteMask } }
    ∧ (∀ n : Note, t.exp.noteMask.getLsbD n.bit = v.getLsbD n.bit)
    ∧ (∀ n : Note, (t.readRegister .noteMask).getLsbD n.bit = v.getLsbD n.bit)
    ∧ (∀ k, 7 ≤ k → (t.readRegister .noteMask).getLsbD k = false)
    ∧ (t.exp.int = true ↔ ∃ n : Note, s.exp.note.getLsbD n.bit = true ∧ v.getLsbD n.bit = true))
  ∧ (∀ e : Exp, e.int = true ↔
      ∃ n : Note, e.note.getLsbD n.bit = true ∧ e.noteMask.getLsbD n.bit = true)
  ∧ (∀ (e : Exp) (n : Note), e.noteMask.getLsbD n.bit = true → (e.raise n).int = true)

/-! ### Orders on their way and their answers -/

/-- The orders of one owner are taken in the order of their dispatch, whatever orders of other owners stand
between them (R163), and the messages of one sender to OCC in the order they were sent, which is the
model's choice (log 9). An owner's answer is one write of bytes 64 to 127 of its slot (R166): the status 2
ANSWERED, the code, and every result field at its offset, least significant byte first, every other byte 0
(Tables 11-2, 11-4), for any list of fields within bytes 66 to 127 of which no two overlap, with the codes of
Table 11-13. -/
def Obligations.OrdersInAndAnswersOut : Prop :=
  ((∀ (o : Owner) (l r : List Dispatched) (d : Dispatched), takeOrder o l = some (d, r) ↔
    ∃ a b, l = a ++ d :: b ∧ r = a ++ b ∧ d.order.owner = o ∧ ∀ x ∈ a, x.order.owner ≠ o)
  ∧ (∀ (f : Sender) (l r : List OccMsg) (m : OccMsg), takeMsg f l = some (m, r) ↔
    ∃ a b, l = a ++ m :: b ∧ r = a ++ b ∧ m.sender = f ∧ ∀ x ∈ a, x.sender ≠ f))
  ∧ ((∀ (s : State) (i : Fin 16) (k : AnswerCode) (f : List FieldVal), s.answer i k f
    = { s with host := { s.host with
        inFlight := s.host.inFlight
          ++ [⟨.slotAnswer i, s.host.serial, s.exp.base.toNat * 4096 + 128 * i.val + 64, answerBytes k f⟩]
        serial := s.host.serial + 1 } })
  ∧ [AnswerCode.done, .badOrder, .busy, .volumeOpen, .noVolume, .noTables, .noClass, .badTable, .badPlan,
      .tooLate, .incomplete, .handWait, .notWaiting, .wrongStep, .badCursor, .endOfVolume, .notAtOpening,
      .foldedSide, .paused, .stopped, .armDead, .notDead, .stall].map (·.code)
    = [1, 2, 3, 4, 5, 6, 7, 8, 9, 10, 11, 12, 13, 14, 15, 16, 17, 18, 19, 20, 21, 22, 23]
  ∧ (∀ k : AnswerCode, answerBytes k [] = 2 :: BitVec.ofNat 8 k.code :: List.replicate 62 0)
  ∧ (∀ (k : AnswerCode) (fields : List FieldVal), (∀ f ∈ fields, 66 ≤ f.offset ∧ f.offset + f.width ≤ 128) →
      fields.Pairwise (fun f g => f.offset + f.width ≤ g.offset ∨ g.offset + g.width ≤ f.offset) →
      LaidOut 64 64 (answerBytes k fields)
        ((64, 1, 2) :: (65, 1, k.code) :: fields.map (fun f => (f.offset, f.width, f.value)))))

/-! ### Classes and profiles (chapter 1) -/

/-- The class lookup (R3): the first valid entry whose range holds the key gives the profile; with none,
the default profile where it is enabled, and no profile otherwise. -/
def Obligations.ClassLookupTakesTheFirstMatch : Prop :=
  ∀ (p : Pfs) (key : Nat),
    (∀ (i : Nat) (e : ClassEntry), p.classes[i]? = some e → e.valid = true → e.base ≤ key → key ≤ e.limit →
      (∀ (j : Nat) (f : ClassEntry), j < i → p.classes[j]? = some f →
        f.valid = false ∨ key < f.base ∨ f.limit < key) →
      p.lookup key = some e.profile)
    ∧ ((∀ e ∈ p.classes, e.valid = false ∨ key < e.base ∨ e.limit < key) →
      p.lookup key = if p.cradle.defaultEnable then some p.cradle.defaultProfile else none)

/-- The validation of a staging copy (R13, R14): the checks of Table 1-7, each on the bytes of Tables 11-5 to
11-7 (classes from byte 0 of the copy, the cradle settings from 256, profiles from 512); the copy passes
exactly when every class entry, every profile and every cradle item passes, and otherwise the answer names
the first failure, classes before profiles before the cradle settings. -/
def Obligations.TableValidationStopsAtTheFirstFailure : Prop :=
  (∀ (b : List Byte) (i : Nat), let o := 16 * i
    (classPasses b (classAt i) = true ↔
      byteAt b o = 0
      ∨ (byteAt b o = 1 ∧ leNat b (o + 4) 4 ≤ leNat b (o + 8) 4 ∧ byteAt b (o + 1) < 8)))
  ∧ (∀ (b : List Byte) (p : Nat), let o := 512 + 192 * p
    let tMin := leNat b (o + 84) 4
    (profilePasses b (profileAt p) = true ↔
      (∀ k, k < 5 → 1 ≤ leNat b (o + 16 * k) 4
        ∧ 100 ≤ leNat b (o + 16 * k + 8) 4 ∧ leNat b (o + 16 * k + 8) 4 ≤ 200000
        ∧ byteAt b (o + 16 * k + 12) ≤ 7 ∧ tMin ≤ leNat b (o + 16 * k + 8) 4)
      ∧ 1 ≤ leNat b (o + 80) 4 ∧ byteAt b (o + 88) ≤ 32 ∧ 100 ≤ tMin ∧ tMin ≤ 200000
      ∧ (byteAt b (o + 89) = 1 ∨ byteAt b (o + 89) = 2)
      ∧ 1 ≤ byteAt b (o + 90) ∧ byteAt b (o + 90) ≤ 15
      ∧ 1 ≤ byteAt b (o + 94) ∧ byteAt b (o + 94) ≤ 4 ∧ byteAt b (o + 95) ≤ 7
      ∧ 1 ≤ leNat b (o + 96) 2 ∧ leNat b (o + 96) 2 ≤ 1023
      ∧ byteAt b (o + 98) ≤ 3 ∧ byteAt b (o + 99) ≤ 1 ∧ byteAt b (o + 100) ≤ 4))
  ∧ (∀ b : List Byte,
    (cradlePasses b cradleAt 0 = true ↔ byteAt b (256 + 9) ≤ 1 ∧ byteAt b (256 + 10) < 8)
    ∧ ∀ (c : Chan) (k : Nat), k < 4 →
      let types := 256 + (if c = .left then 12 else 16)
      let flags := 256 + (if c = .left then 20 else 24)
      (cradlePasses b cradleAt ((if c = .left then 1 else 5) + k) = true ↔
        byteAt b (types + k) ≤ 127 ∧ byteAt b (flags + k) ≤ 1
        ∧ (byteAt b (types + k) ≠ 0 → ∀ j, j < k → byteAt b (types + j) ≠ byteAt b (types + k))))
  ∧ ∀ b : List Byte,
    (tableFailure b = none ↔
      (∀ i, i < 16 → classPasses b (classAt i) = true)
      ∧ (∀ p, p < 8 → profilePasses b (profileAt p) = true)
      ∧ (∀ i, i < 9 → cradlePasses b cradleAt i = true))
    ∧ (∀ n, tableFailure b = some (.cls, n) ↔
        n < 16 ∧ classPasses b (classAt n) = false ∧ ∀ i, i < n → classPasses b (classAt i) = true)
    ∧ (∀ n, tableFailure b = some (.profile, n) ↔
        (∀ i, i < 16 → classPasses b (classAt i) = true)
        ∧ n < 8 ∧ profilePasses b (profileAt n) = false
        ∧ ∀ p, p < n → profilePasses b (profileAt p) = true)
    ∧ (∀ n, tableFailure b = some (.cradle, n) ↔
        (∀ i, i < 16 → classPasses b (classAt i) = true)
        ∧ (∀ p, p < 8 → profilePasses b (profileAt p) = true)
        ∧ n < 9 ∧ cradlePasses b cradleAt n = false ∧ ∀ i, i < n → cradlePasses b cradleAt i = true)

/-- LOAD_TABLES, TABLE_IMAGES_READ and SIDEBAND_SLOTS_CLEAR (R12 to R16, R155): an order waits behind
another, is answered VOLUME_OPEN while a volume is open, or has the images read; a failure is answered
BAD_TABLE with its group and index and changes nothing else in the store; a valid copy is installed whole
only while no volume is open; each channel then takes its types and flags with its slots cleared, and the
second of them answers DONE and starts the next order (log 11). The entries, profiles and settings installed
are those of the copy's bytes (Tables 11-5 to 11-7). -/
def Obligations.LoadTablesInstallsOrRefuses : Prop :=
  (∀ (s : State) (l : List (Fin 16)),
    (s.vau.vol = .noVolume → s.startLoads l
      = { s with pfs := { s.pfs with job := l.head?.map .reading, waiting := l.tail } })
    ∧ (s.vau.vol ≠ .noVolume → s.startLoads l
      = { l.foldl (fun u j => u.answer j .volumeOpen) s with
          pfs := { s.pfs with job := none, waiting := [] } }))
  ∧ (∀ (s s' : State) (d : Dispatched), s.nextOrder .pfs = some (d, s') →
    (s.pfs.job ≠ none → exec .loadTables s
      = .next { s' with pfs := { s'.pfs with waiting := s.pfs.waiting ++ [d.slot] } })
    ∧ (s.pfs.job = none → exec .loadTables s = .next (s'.startLoads [d.slot])))
  ∧ (∀ (b : List Byte) (i : Fin 16) (s : State), s.pfs.job = some (.reading i) →
    (∀ g n, tableFailure b = some (g, n) → exec (.tableImagesRead b) s
      = .next ((s.answer i .badTable [⟨68, 1, g.code⟩, ⟨69, 1, n⟩]).startLoads s.pfs.waiting))
    ∧ (tableFailure b = none → s.vau.vol ≠ .noVolume → exec (.tableImagesRead b) s
      = .next ((s.answer i .volumeOpen).startLoads s.pfs.waiting))
    ∧ (tableFailure b = none → s.vau.vol = .noVolume → exec (.tableImagesRead b) s
      = .next { s with
          pfs := { s.pfs with
            loaded := true, classes := parseClasses b, profiles := parseProfiles b,
            cradle := parseCradle b cradleAt, job := some (.clearing i .both) }
          ldu := { s.ldu with retired := 0 } }))
  ∧ (∀ (c : Chan) (i : Fin 16) (todo : ChanSet) (s : State),
    s.pfs.job = some (.clearing i todo) → todo.has c = true →
    ∃ u : State, u = { s with cch := s.cch.set c { s.cch.get c with slots := (u.cch.get c).slots } }
      ∧ (∀ k, (u.cch.get c).slot k
          = { SbSlot.reset with
              type := (s.pfs.cradle.slotConfig.get c).types.getD k.val 0
              storeOnError := (s.pfs.cradle.slotConfig.get c).storeOnError.getD k.val false })
      ∧ ((todo.erase c).isEmpty = false → exec (.sidebandSlotsClear c) s
          = .next { u with pfs := { s.pfs with job := some (.clearing i (todo.erase c)) } })
      ∧ ((todo.erase c).isEmpty = true → exec (.sidebandSlotsClear c) s
          = .next ((u.answer i .done).startLoads s.pfs.waiting)))
  ∧ (∀ b : List Byte, (parseClasses b).length = 16 ∧ ∀ i, i < 16 → (parseClasses b)[i]? = some {
      valid := byteAt b (16 * i) == 1, profile := byteAt b (16 * i + 1)
      base := leNat b (16 * i + 4) 4, limit := leNat b (16 * i + 8) 4 })
  ∧ (∀ b : List Byte, (parseProfiles b).length = 8 ∧ ∀ p, p < 8 →
    let o := 512 + 192 * p
    let kind (k : Nat) : KindParams := {
      cap := leNat b (o + 16 * k) 4
      levels := [byteAt b (o + 16 * k + 4), byteAt b (o + 16 * k + 5), byteAt b (o + 16 * k + 6),
        byteAt b (o + 16 * k + 7)]
      strobe := leNat b (o + 16 * k + 8) 4, knife := byteAt b (o + 16 * k + 12) }
    (parseProfiles b)[p]? = some {
      board := kind 0, text := kind 1, plate := kind 2, tissue := kind 3, foldout := kind 4
      budget := leNat b (o + 80) 4, tMin := leNat b (o + 84) 4, reserve := byteAt b (o + 88)
      doseMode := if byteAt b (o + 89) = 1 then .withhold else if byteAt b (o + 89) = 2 then .halt else .unset
      attemptLimit := byteAt b (o + 90)
      retryClass := byteAt b (o + 91) % 16, platenClass := byteAt b (o + 91) / 16
      armClass := byteAt b (o + 92) % 16, liftClass := byteAt b (o + 92) / 16
      frameClass := byteAt b (o + 93) % 16, roomClass := byteAt b (o + 93) / 16
      stallAction := if byteAt b (o + 94) = 1 then .hold else if byteAt b (o + 94) = 2 then .retract
        else if byteAt b (o + 94) = 3 then .retractCut else if byteAt b (o + 94) = 4 then .cut else .unset
      cutCode := byteAt b (o + 95), pressureLimit := leNat b (o + 96) 2, autoLimit := byteAt b (o + 98)
      wait := byteAt b (o + 99) == 1, gate := byteAt b (o + 100), minFocus := leNat b (o + 102) 2 })
  ∧ (∀ b : List Byte,
    let slots (t f : Nat) : SlotConfig := ⟨(List.range 4).map (fun k => byteAt b (256 + t + k)),
      (List.range 4).map (fun k => byteAt b (256 + f + k) == 1)⟩
    parseCradle b cradleAt = {
      calibration := [leNat b 256 2, leNat b 258 2, leNat b 260 2, leNat b 262 2], spill := byteAt b 264
      defaultEnable := byteAt b 265 == 1, defaultProfile := byteAt b 266
      slotConfig := ⟨slots 12 20, slots 16 24⟩ })

/-- The lock of the profile store (R17): over every step that leaves the volume open, the class table, the
profiles, the cradle settings, the profile in force and the collection key do not change. -/
def Obligations.TablesAreLockedWhileOpen : Prop :=
  ∀ s t : State, s.VolumeCoherent → step s = .next t →
    s.vau.vol ≠ .noVolume → t.vau.vol ≠ .noVolume →
    t.pfs.classes = s.pfs.classes ∧ t.pfs.profiles = s.pfs.profiles ∧ t.pfs.cradle = s.pfs.cradle
    ∧ t.pfs.loaded = s.pfs.loaded ∧ t.vau.profile = s.vau.profile ∧ t.vau.key = s.vau.key

/-! ### The plan and the opening (chapter 2) -/

/-- The plan checks of R27: entry e passes step 3 exactly when its kind is one of the six, it is BOARD at 0
and N-1 and nowhere else, and its panel count is 2 to 8 for FOLDOUT and 1 for every other kind; a plan
passes when every entry does, with its kind, panel count and host tag as read (Table 11-8), and fails with the
index of the first that does not. The physical entries are those whose kind is not LACUNA: the next one after e is
the lowest-numbered above e (R22), the RIGHT page of an opening is that after the cursor (R23), and the opening
range holds exactly the physical entries from 0 to the last of them below N-1, at which the RIGHT page is entry
N-1 (R24). That the plan length stands for the next physical entry where there is none is the model's choice (log
47). -/
def Obligations.PlanChecksStopAtTheFirstFailure : Prop :=
  (∀ (b : List Byte) (n e : Nat), (parsePlanEntry b n e ≠ none ↔
      (1 ≤ byteAt b (16 * e) ∧ byteAt b (16 * e) ≤ 6)
      ∧ (byteAt b (16 * e) = 1 ↔ e = 0 ∨ e + 1 = n)
      ∧ (byteAt b (16 * e) = 5 → 2 ≤ byteAt b (16 * e + 1) ∧ byteAt b (16 * e + 1) ≤ 8)
      ∧ (byteAt b (16 * e) ≠ 5 → byteAt b (16 * e + 1) = 1))
    ∧ ∀ p, parsePlanEntry b n e = some p → p.kind.code = byteAt b (16 * e)
      ∧ p.panels = byteAt b (16 * e + 1) ∧ p.tag = leNat b (16 * e + 4) 4)
  ∧ (∀ (b : List Byte) (n e : Nat), parsePlan b n = .error e ↔
      e < n ∧ parsePlanEntry b n e = none ∧ ∀ j, j < e → parsePlanEntry b n j ≠ none)
  ∧ (∀ (b : List Byte) (n : Nat) (plan : List PlanEntry), parsePlan b n = .ok plan ↔
      plan.length = n ∧ ∀ e, e < n → parsePlanEntry b n e = plan[e]? ∧ parsePlanEntry b n e ≠ none)
  ∧ (∀ (plan : List PlanEntry) (e : Nat),
    let physical (k : Nat) : Prop := ∃ p, plan[k]? = some p ∧ p.kind ≠ .lacuna
    (∀ p, plan[e]? = some p → planAt plan e = p)
    ∧ (∀ j, e < j → physical j → (∀ k, e < k → k < j → ¬physical k) → nextPhysical plan e = j)
    ∧ ((∀ j, e < j → ¬physical j) → nextPhysical plan e = plan.length)
    ∧ (e + 1 < plan.length → physical e → (∀ k, e < k → k + 1 < plan.length → ¬physical k) →
      lastOpening plan = e
      ∧ (∀ c, inOpeningRange plan c = true ↔ physical c ∧ c ≤ e)
      ∧ (physical (plan.length - 1) → nextPhysical plan e + 1 = plan.length)))
  ∧ (∀ v : Vau, v.rightEntry = nextPhysical v.plan v.cursor
    ∧ (v.atLastOpening = true ↔ v.cursor = lastOpening v.plan)
    ∧ v.pageEntry .left = v.cursor ∧ v.pageEntry .right = nextPhysical v.plan v.cursor
    ∧ pageSide .left = .verso ∧ pageSide .right = .recto)

/-- OPEN_VOLUME and SHEET_HEADER_READ (R26, R27): an order waits behind another, is answered VOLUME_OPEN
while a volume is open, or has the sheet read; a plan length outside 3 to 1,024 is answered BAD_PLAN with
index 65,535, and any other has its plan entries read, with the header as Table 11-8 lays it out; the state
of the volume does not change. That the resume flag is examined only after that read is R26's order, which
the row of the table does not follow (log 41). -/
def Obligations.OpenVolumeReadsTheSheet : Prop :=
  (∀ (s : State) (l : List (Fin 16)),
    (s.vau.vol = .noVolume → s.startOpens l = { s with vau := { s.vau with
        openJob := l.head?.map (fun i => ⟨i, .header⟩), openWaiting := l.tail } })
    ∧ (s.vau.vol ≠ .noVolume → s.startOpens l
      = { l.foldl (fun u j => u.answer j .volumeOpen) s with
          vau := { s.vau with openJob := none, openWaiting := [] } }))
  ∧ (∀ (s s' : State) (i : Fin 16), s.nextOrder .vau = some (⟨i, .openVolume⟩, s') →
    (s.vau.openJob ≠ none → exec .openVolume s
      = .next { s' with vau := { s'.vau with openWaiting := s.vau.openWaiting ++ [i] } })
    ∧ (s.vau.openJob = none → exec .openVolume s = .next (s'.startOpens [i])))
  ∧ (∀ (b : List Byte) (i : Fin 16) (s : State), s.vau.openJob = some ⟨i, .header⟩ →
    (3 ≤ leNat b 38 2 → leNat b 38 2 ≤ 1024 → exec (.sheetHeaderRead b) s
      = .next { s with vau := { s.vau with openJob := some ⟨i, .plan {
          text := (List.range 32).map (fun k => b.getD k 0), key := leNat b 32 4, part := byteAt b 36
          resume := byteAt b 37, length := leNat b 38 2 }⟩ } })
    ∧ ((leNat b 38 2 < 3 ∨ 1024 < leNat b 38 2) → exec (.sheetHeaderRead b) s
      = .next ((s.answer i .badPlan [⟨70, 2, 65535⟩]).startOpens s.vau.openWaiting)))

/-- PLAN_READ (R27 to R29): a resume flag above 1 is answered BAD_PLAN with index 65,535 (log 41), and then
a plan that fails is answered BAD_PLAN with its index, an EMPTY store NO_TABLES and
a key without class NO_CLASS, with the volume state unchanged; otherwise the volume is OPENING in the same
event, with the plan, key, part number, text and profile fixed and the opening record at cursor 0. With the
resume flag 0 every entry of the fresh ledger and then the header are written whole (R29, R36). With it 1
the close record's valid flag is cleared when its key is the sheet's (R30, R55). -/
def Obligations.PlanReadOpensOrRefuses : Prop :=
  ∀ (b r : List Byte) (i : Fin 16) (h : SheetHeader) (s : State), s.vau.openJob = some ⟨i, .plan h⟩ →
    (1 < h.resume → exec (.planRead b r) s
      = .next ((s.answer i .badPlan [⟨70, 2, 65535⟩]).startOpens s.vau.openWaiting))
    ∧ (∀ e, h.resume ≤ 1 → parsePlan b h.length = .error e → exec (.planRead b r) s
      = .next ((s.answer i .badPlan [⟨70, 2, e⟩]).startOpens s.vau.openWaiting))
    ∧ (∀ plan, h.resume ≤ 1 → parsePlan b h.length = .ok plan → s.pfs.loaded = false → exec (.planRead b r) s
      = .next ((s.answer i .noTables).startOpens s.vau.openWaiting))
    ∧ (∀ plan, h.resume ≤ 1 → parsePlan b h.length = .ok plan → s.pfs.loaded = true →
      s.pfs.lookup h.key = none →
      exec (.planRead b r) s = .next ((s.answer i .noClass).startOpens s.vau.openWaiting))
    ∧ (∀ plan p, h.resume ≤ 1 → parsePlan b h.length = .ok plan → s.pfs.loaded = true →
      s.pfs.lookup h.key = some p →
      ∃ t, exec (.planRead b r) s = .next t
        ∧ t = { s with vau := t.vau, host := t.host } ∧ t.host.mem = s.host.mem
        ∧ t.vau = { s.vau with
            vol := .opening, plan := plan, key := h.key, part := h.part, text := h.text
            profile := some p, cursor := 0, unfolded := false, nextPanel := 1
            mirror := t.vau.mirror, nextFrame := t.vau.nextFrame, openJob := t.vau.openJob }
        ∧ (h.resume = 0 → t.vau.nextFrame = 1 ∧ t.vau.openJob = some ⟨i, .writes 0⟩
            ∧ t.vau.mirror = freshMirror plan
            ∧ t.host = s.host.issued .vau ((List.range plan.length).map
                (fun e => (s.exp.base.toNat * 4096 + 0x8100 + 192 * e, entryBytes (t.vau.entry e)))
              ++ [(s.exp.base.toNat * 4096 + 0x8000, headerBytes t.vau 0)]))
        ∧ (h.resume = 1 → t.vau.mirror = s.vau.mirror ∧ t.vau.nextFrame = s.vau.nextFrame
            ∧ t.vau.openJob = some ⟨i, .ledger⟩
            ∧ t.host = s.host.issued .vau (if leNat r 32 4 = h.key then
                [(s.exp.base.toNat * 4096 + 0x1000 + 38, [0])] else [])))

/-- The initial status of a side by the kind of its leaf; `first` is entry 0, the front board (Table 2-2). -/
def startStatus (k : Kind) (first : Bool) : Side → Status
  | .verso => match k with
    | .board => if first then .pending else .exempt
    | .text | .plate | .foldout => .pending
    | .tissue | .lacuna => .exempt
  | .recto => match k with
    | .board => if first then .exempt else .pending
    | .text | .plate | .foldout => .pending
    | .tissue | .lacuna => .exempt

/-- The fields of a side record from offset o (Table 11-10). -/
def sideLayout (o : Nat) (r : SideRec) : List (Nat × Nat × Nat) :=
  [(o, 1, r.status.code), (o + 1, 1, r.takes), (o + 2, 1, r.panels.length), (o + 4, 4, r.dose)]
    ++ (List.range r.panels.length).flatMap (fun j =>
      [(o + 8 + 8 * j, 4, (r.panels.getD j ⟨0, 0⟩).number), (o + 12 + 8 * j, 4, (r.panels.getD j ⟨0, 0⟩).check)])

/-- A fresh ledger entry (R29, Table 2-2) holds the plan's kind and tag, no attempt, no reading, both flags
clear, and two sides of their initial status with nothing taken, no dose, and every panel empty. An entry read
back (R30) holds the plan's kind and tag, the takes and doses as read, at most 15 attempts, another reading
than TWO or MANY as NONE, and UNCERTAIN as read. It is reset, to the initial statuses and AMENDED, with every
panel empty, when its kind, a panel count or a status does not fit; otherwise it keeps its AMENDED flag,
statuses and panels, a CAPTURED side with a panel missing becoming RETAKE_DUE. It is written back exactly
when a value differs from what was read (log 28). Entry and header are laid out by Tables 11-9 and 11-10,
with the codes of Table 11-13. -/
def Obligations.LedgerEntriesStartSound : Prop :=
  (∀ (plan : List PlanEntry) (e : Nat) (p : PlanEntry), plan[e]? = some p →
    (freshMirror plan).length = plan.length
    ∧ (freshMirror plan)[e]? = some {
        kind := p.kind, tag := p.tag, attempts := 0, reading := .none, amended := false, uncertain := false
        verso := ⟨startStatus p.kind (e == 0) .verso, 0, 0, [⟨0, 0⟩]⟩
        recto := ⟨startStatus p.kind (e == 0) .recto, 0, 0, List.replicate p.panels ⟨0, 0⟩⟩ })
  ∧ (∀ (b : List Byte) (e : Nat) (p : PlanEntry),
    let o := 192 * e
    let x := (reconcile b e p).1
    let offset (side : Side) : Nat := o + (if side = .verso then 16 else 88)
    let count (side : Side) : Nat := if side = .verso then 1 else p.panels
    let fits := byteAt b o = p.kind.code
      ∧ ∀ side, 1 ≤ byteAt b (offset side) ∧ byteAt b (offset side) ≤ 6 ∧ byteAt b (offset side + 2) = count side
    let missing (side : Side) : Prop := byteAt b (offset side) = 2
      ∧ ∃ j, j < count side ∧ leNat b (offset side + 8 + 8 * j) 4 = 0
    x.kind = p.kind ∧ x.tag = p.tag ∧ x.attempts = min 15 (byteAt b (o + 2))
    ∧ x.reading = (if byteAt b (o + 3) = 1 then .two else if byteAt b (o + 3) = 2 then .many else .none)
    ∧ x.uncertain = (byteAt b (o + 1)).testBit 1
    ∧ (∀ side, (x.sideRec side).takes = byteAt b (offset side + 1)
      ∧ (x.sideRec side).dose = leNat b (offset side + 4) 4
      ∧ (x.sideRec side).panels.length = count side ∧ (x.sideRec side).CaptureLaw)
    ∧ (¬fits → x.amended = true ∧ (reconcile b e p).2 = true ∧ ∀ side,
      (x.sideRec side).status = startStatus p.kind (e == 0) side
      ∧ (x.sideRec side).panels = List.replicate (count side) ⟨0, 0⟩)
    ∧ (fits → x.amended = (byteAt b (o + 1)).testBit 0
      ∧ (∀ side, (missing side → (x.sideRec side).status = .retakeDue)
        ∧ (¬missing side → (x.sideRec side).status.code = byteAt b (offset side))
        ∧ ∀ j, j < count side → (x.sideRec side).panels[j]?
            = some ⟨leNat b (offset side + 8 + 8 * j) 4, leNat b (offset side + 12 + 8 * j) 4⟩)
      ∧ ((reconcile b e p).2 = true ↔ (∃ side, missing side) ∨ 15 < byteAt b (o + 2) ∨ 2 < byteAt b (o + 3)
          ∨ 3 < byteAt b (o + 1) ∨ leNat b (o + 4) 4 ≠ p.tag)))
  ∧ (∀ x : LedgerEntry, x.verso.panels.length ≤ 8 → x.recto.panels.length ≤ 8 →
    LaidOut 0 192 (entryBytes x)
      ([(0, 1, x.kind.code), (1, 1, (if x.amended then 1 else 0) + (if x.uncertain then 2 else 0)),
        (2, 1, x.attempts), (3, 1, x.reading.code), (4, 4, x.tag)]
        ++ sideLayout 16 x.verso ++ sideLayout 88 x.recto))
  ∧ (∀ (v : Vau) (dose : Nat),
    let count (st : Status) : Nat := ((sidesOf v.mirror).filter (fun r => r.status == st)).length
    LaidOut 0 256 (headerBytes v dose)
      [(0, 4, v.key), (4, 1, v.profile.getD 0), (8, 2, v.cursor), (12, 4, v.nextFrame), (16, 8, dose),
       (24, 2, count .pending), (26, 2, count .captured), (28, 2, count .retakeDue), (30, 2, count .withheld),
       (32, 2, count .skipped), (34, 2, count .exempt)])
  ∧ [Kind.board, .text, .plate, .tissue, .foldout, .lacuna].map (·.code) = [1, 2, 3, 4, 5, 6]
  ∧ [Status.pending, .captured, .retakeDue, .withheld, .skipped, .exempt].map (·.code) = [1, 2, 3, 4, 5, 6]
  ∧ [LiftReading.none, .two, .many].map (·.code) = [0, 1, 2]

/-- LEDGER_READ_COMPLETE (R30, R31): the volume dose, the next accepted-frame number and the cursor of a
resumed volume, and the mirror reconciled and skip-marked from 0 to that cursor; every entry that was reset,
corrected or skip-marked is written whole, in plan order, and then the header (log 28). The largest accepted
frame number is that of any panel record of the mirror, 0 where there is no record, and the dose of the mirror is
the sum of all 2N side doses. -/
def Obligations.LedgerReadResumesTheVolume : Prop :=
  (∀ (h b : List Byte) (i : Fin 16) (s : State), s.vau.openJob = some ⟨i, .ledger⟩ →
    ∃ t, exec (.ledgerReadComplete h b) s = .next t
      ∧ t = { s with vau := t.vau, host := t.host } ∧ t.host.mem = s.host.mem
      ∧ t.vau = { s.vau with
          mirror := t.vau.mirror, cursor := t.vau.cursor, nextFrame := t.vau.nextFrame
          openJob := t.vau.openJob }
      ∧ (let read := (mapFrom (reconcile b) 0 s.vau.plan).map (·.1)
        (inOpeningRange s.vau.plan (leNat h 8 2) = true → t.vau.cursor = leNat h 8 2)
        ∧ (inOpeningRange s.vau.plan (leNat h 8 2) = false → t.vau.cursor = 0)
        ∧ t.vau.mirror = skipMark s.vau.plan 0 t.vau.cursor read
        ∧ t.vau.openJob = some ⟨i, .writes (max (leNat h 16 8) (mirrorDose read))⟩
        ∧ t.host = s.host.issued .vau (((List.range s.vau.plan.length).filter (fun e =>
              (reconcile b e (planAt s.vau.plan e)).2
                || t.vau.entry e != (reconcile b e (planAt s.vau.plan e)).1)).map
            (fun e => (s.exp.base.toNat * 4096 + 0x8100 + 192 * e, entryBytes (t.vau.entry e)))
          ++ [(s.exp.base.toNat * 4096 + 0x8000,
            headerBytes t.vau (max (leNat h 16 8) (mirrorDose read)))])
        ∧ ((leNat h 12 4 = 0 ∨ largestFrame read = 4294967295) → t.vau.nextFrame = 0)
        ∧ (leNat h 12 4 ≠ 0 → largestFrame read ≠ 4294967295 →
            t.vau.nextFrame = max (leNat h 12 4) (largestFrame read + 1))))
  ∧ (∀ mirror : List LedgerEntry,
    (∀ x ∈ mirror, ∀ side, ∀ p ∈ (x.sideRec side).panels, p.number ≤ largestFrame mirror)
    ∧ (largestFrame mirror ≠ 0 →
      ∃ x ∈ mirror, ∃ side, ∃ p ∈ (x.sideRec side).panels, p.number = largestFrame mirror)
    ∧ mirrorDose mirror = (mirror.map (fun x => x.verso.dose + x.recto.dose)).sum)

/-- a with the descriptor of the take that the channel of s holds outstanding, if any, returned to FREE (R32). -/
def takeReturned (s : State) (c : Chan) (a : State) : State :=
  (s.cch.get c).take.elim a (fun t => a.releaseDesc c t.desc.bank t.desc.index)

/-- OPENING_WRITES_COMPLETE (R32, R33): the LDU is handed the doses of the mirror and the volume dose, OCC
holds no order and no auto-retake counts, each channel is restarted in IDLE with its slots kept, the
descriptor of a take that was outstanding is FREE and its frame is spurned, the active bank is A unless the
partial hand-over on READY has handed bank A over (R150), the banks and the notes are as those returns and the
entry into READY leave them and no others, the volume is READY, VAU's writes have completed, and the order is
answered DONE with the profile and the cursor, before VOLUME_OPEN to each order that waits (R26).
That the body writes of such a take complete here (log 5), and that the intake counts and the CRC keep their values
(log 35), are the model's choices. -/
def Obligations.OpeningEndsReady : Prop :=
  ∀ (d : Nat) (i : Fin 16) (s : State), s.vau.openJob = some ⟨i, .writes d⟩ →
    ∃ t, exec .openingWritesComplete s = .next t
      ∧ t.vau = { s.vau with vol := .ready, openJob := none, openWaiting := [] }
      ∧ t.ldu = { s.ldu with sideDose := t.ldu.sideDose, volDose := t.ldu.volDose }
      ∧ t.ldu.sideDose = s.vau.mirror.map (fun e => (e.verso.dose, e.recto.dose))
      ∧ t.ldu.volDose = max d (mirrorDose s.vau.mirror)
      ∧ t.occ = { Occ.reset with auto := t.occ.auto, inbox := s.occ.inbox, releasing := s.occ.releasing }
      ∧ (∀ e side, t.occ.autoCount e side = 0)
      ∧ (∀ c,
        let x := s.cch.get c
        let y := t.cch.get c
        y = { x with
          state := .idle, takeId := 0, lastDone := none, lost := 0, syncPending := true, take := none
          frameWatch := none, result := none, intake := y.intake }
        ∧ (x.intake = .taking → y.intake = .discarding .spurned x.takeId x.bodyLength x.received)
        ∧ (x.intake ≠ .taking → y.intake = x.intake)
        ∧ ∀ r, x.take = some r → ((s.fbk.get c).bank r.desc.bank).desc r.desc.index = .reserved →
          ((t.fbk.get c).bank r.desc.bank).desc r.desc.index = .free)
      ∧ (∀ c, (s.fbk.get c).bankA.has .filled = false → (t.fbk.get c).active = .bankA)
      ∧ (let onA (c : Chan) (a : State) : State :=
          { a with fbk := a.fbk.set c { a.fbk.get c with active := .bankA } }
        let rest := onA .right (onA .left (takeReturned s .right (takeReturned s .left s)))
        t.fbk = (rest.enterRest .ready).fbk ∧ t.exp.note = (rest.enterRest .ready).exp.note)
      ∧ t.pfs = s.pfs ∧ t.tsq = s.tsq ∧ t.sideband = s.sideband ∧ t.free = s.free
      ∧ t.exp = { s.exp with note := t.exp.note }
      ∧ ∃ h k l : HostSide,
        s.host.Completed (fun w => w.writer == .vau && w.serial < s.host.serial) h
        ∧ h.Completed (fun w => w.writer == .body .left) k
        ∧ k.Completed (fun w => w.writer == .body .right) l
        ∧ t.host = s.vau.openWaiting.foldl (fun g n => g.answered s.exp.base n .volumeOpen [])
            (l.answered s.exp.base i .done [⟨68, 1, s.vau.profile.getD 0⟩, ⟨70, 2, s.vau.cursor⟩])

/-- AMEND (R34, R35): its refusals in their order, the DONE of a kind that is already the one named, and the
accepted change of one plan entry and one mirror entry, whose sides keep their takes and doses and take
initial statuses and one empty panel, with the changed entry and the header written (R36, R173);
AMEND_WRITES_COMPLETE answers DONE once the writes have completed. -/
def Obligations.AmendChangesOneEntryAhead : Prop :=
  (∀ (s s' : State) (i : Fin 16) (e k : Nat), s.nextOrder .vau = some (⟨i, .amend e k⟩, s') →
    (s.vau.vol = .noVolume → exec .amend s = .next (s'.answer i .noVolume))
    ∧ (s.vau.vol = .opening ∨ s.vau.vol = .closing → exec .amend s = .next (s'.answer i .busy))
    ∧ (s.vau.vol = .ready ∨ s.vau.vol = .cycling ∨ s.vau.vol = .handWait →
      (s.vau.plan.length ≤ e ∨ e = 0 ∨ e + 1 = s.vau.plan.length
          ∨ ¬(k = 2 ∨ k = 3 ∨ k = 4 ∨ k = 6) →
        exec .amend s = .next (s'.answer i .badPlan [⟨70, 2, e⟩]))
      ∧ (e ≠ 0 → e + 1 < s.vau.plan.length → (k = 2 ∨ k = 3 ∨ k = 4 ∨ k = 6) →
        (e ≤ s.vau.rightEntry →
          exec .amend s = .next (s'.answer i .tooLate [⟨70, 2, s.vau.rightEntry⟩]))
        ∧ (s.vau.rightEntry < e → (planAt s.vau.plan e).kind.code = k →
          exec .amend s = .next (s'.answer i .done))
        ∧ (s.vau.rightEntry < e → (planAt s.vau.plan e).kind.code ≠ k →
          ∃ t, exec .amend s = .next t
            ∧ t = { s' with vau := t.vau, host := t.host }
            ∧ t.host = s.host.issued .vau (ledgerWrites s.exp.base s.vau t.vau true)
            ∧ t.vau = { s.vau with
                plan := t.vau.plan, mirror := t.vau.mirror, amendJobs := t.vau.amendJobs }
            ∧ t.vau.amendJobs = s.vau.amendJobs ++ [VauJob.mk i t.host.serial]
            ∧ (∀ j, j ≠ e → t.vau.plan[j]? = s.vau.plan[j]? ∧ t.vau.mirror[j]? = s.vau.mirror[j]?)
            ∧ (∀ p, s.vau.plan[e]? = some p →
                ∃ q, t.vau.plan[e]? = some q ∧ q.kind.code = k ∧ q.panels = 1 ∧ q.tag = p.tag)
            ∧ (∀ x, s.vau.mirror[e]? = some x → ∃ y, t.vau.mirror[e]? = some y
                ∧ y.kind.code = k ∧ y.amended = true
                ∧ y = { x with kind := y.kind, amended := true, verso := y.verso, recto := y.recto }
                ∧ y.verso = ⟨if k = 2 ∨ k = 3 then .pending else .exempt, x.verso.takes, x.verso.dose,
                    [⟨0, 0⟩]⟩
                ∧ y.recto = ⟨if k = 2 ∨ k = 3 then .pending else .exempt, x.recto.takes, x.recto.dose,
                    [⟨0, 0⟩]⟩)))))
  ∧ (∀ (s : State) (j : VauJob) (rest : List VauJob), s.vau.amendJobs = j :: rest →
      ∃ h, s.host.Completed (fun w => w.writer == .vau && w.serial < j.ticket) h
        ∧ exec .amendWritesComplete s = .next { s with
            host := h.answered s.exp.base j.slot .done []
            vau := { s.vau with amendJobs := rest } })

/-! ### The ledger (chapter 3) -/

/-- Skip marking (R44, R45): on a move from c to c' exactly the PENDING sides hidden by the move become
SKIPPED, the versos of the physical entries from c to below c' and the rectos of those from above c to c';
nothing else of the mirror changes, and a move to the same or a lower value changes nothing. -/
def Obligations.SkipMarkingHidesThePassedSides : Prop :=
  ∀ (plan : List PlanEntry) (c c' : Nat) (mirror : List LedgerEntry),
    (skipMark plan c c' mirror).length = mirror.length
    ∧ (c' ≤ c → skipMark plan c c' mirror = mirror)
    ∧ ∀ e x, mirror[e]? = some x → ∃ y, (skipMark plan c c' mirror)[e]? = some y
        ∧ y = { x with
            verso := { x.verso with status := y.verso.status }
            recto := { x.recto with status := y.recto.status } }
        ∧ y.verso.status = (if (planAt plan e).kind ≠ .lacuna ∧ c ≤ e ∧ e < c' ∧ x.verso.status = .pending
            then .skipped else x.verso.status)
        ∧ y.recto.status = (if (planAt plan e).kind ≠ .lacuna ∧ c < e ∧ e ≤ c' ∧ x.recto.status = .pending
            then .skipped else x.recto.status)

/-- The laws of the account over every step (R31, R40, R41): a side is CAPTURED only when every panel of its
list holds an accepted frame number, and every number recorded lies below the next accepted-frame number
until the numbers are exhausted. -/
def Obligations.AccountLawsKept : Prop :=
  (∀ s t : State, s.vau.CaptureLaw → step s = .next t → t.vau.CaptureLaw)
  ∧ (∀ s t : State, s.vau.NumberLaw → step s = .next t → t.vau.NumberLaw)

/-- HAND_DONE (R48, R49, R70): its refusals in their order; an accepted one clears the step, leaves the volume
READY, moves the cursor with skip marking, FOLDED, panel 1 and the UNCERTAIN flag cleared for a turning
reason, and advances the foldout stage by R70 for a foldout reason; the changed entries and the header are
written (R36, R49, R173), and the banks and the notes are as the entry into READY leaves them (R150).
HAND_DONE_WRITES_COMPLETE answers DONE once the writes have completed; that the cursor
it carries is the one in force then is the model's choice (log 27). -/
def Obligations.HandDoneEndsTheHandStep : Prop :=
  (∀ (s s' : State) (i : Fin 16) (r c : Nat), s.nextOrder .vau = some (⟨i, .handDone r c⟩, s') →
    (s.vau.vol = .noVolume ∨ s.vau.vol = .ready ∨ s.vau.vol = .cycling →
      exec .handDone s = .next (s'.answer i .notWaiting))
    ∧ (s.vau.vol = .opening ∨ s.vau.vol = .closing → exec .handDone s = .next (s'.answer i .busy))
    ∧ (∀ step : HandStep, s.vau.vol = .handWait → s.vau.step = some step →
      (r ≠ step.reason.code →
        exec .handDone s = .next (s'.answer i .wrongStep [⟨68, 1, step.reason.code⟩]))
      ∧ (r = step.reason.code → step.reason.foldout = false → inOpeningRange s.vau.plan c = false →
        exec .handDone s = .next (s'.answer i .badCursor [⟨70, 2, lastOpening s.vau.plan⟩]))
      ∧ (r = step.reason.code → (step.reason.foldout = true ∨ inOpeningRange s.vau.plan c = true) →
        ∃ t, exec .handDone s = .next t
          ∧ t = { s' with
              exp := { s'.exp with note := t.exp.note }
              vau := t.vau, fbk := t.fbk, host := t.host
              occ := { s'.occ with foldoutDone := step.reason == .foldoutRefold } }
          ∧ t.fbk = (s'.enterRest .ready).fbk ∧ t.exp.note = (s'.enterRest .ready).exp.note
          ∧ t.host = s.host.issued .vau (ledgerWrites s.exp.base s.vau t.vau true)
          ∧ t.vau = { s.vau with
              vol := .ready, step := none, handJobs := t.vau.handJobs, mirror := t.vau.mirror
              cursor := t.vau.cursor, unfolded := t.vau.unfolded, nextPanel := t.vau.nextPanel }
          ∧ t.vau.handJobs = s.vau.handJobs ++ [VauJob.mk i t.host.serial]
          ∧ (step.reason.foldout = false →
              t.vau.cursor = c ∧ t.vau.unfolded = false ∧ t.vau.nextPanel = 1
              ∧ t.vau.mirror = (skipMark s.vau.plan s.vau.cursor c s.vau.mirror).modify step.entry
                  (fun x => { x with uncertain := false }))
          ∧ (step.reason.foldout = true →
              t.vau.cursor = s.vau.cursor ∧ t.vau.mirror = s.vau.mirror)
          ∧ (step.reason = .foldoutUnfold → t.vau.unfolded = true ∧ t.vau.nextPanel = 1)
          ∧ (step.reason = .foldoutPanel → t.vau.unfolded = true ∧ t.vau.nextPanel = s.vau.nextPanel + 1)
          ∧ (step.reason = .foldoutRefold → t.vau.unfolded = false ∧ t.vau.nextPanel = 1))))
  ∧ (∀ (s : State) (j : VauJob) (rest : List VauJob), s.vau.handJobs = j :: rest →
      ∃ h, s.host.Completed (fun w => w.writer == .vau && w.serial < j.ticket) h
        ∧ exec .handDoneWritesComplete s = .next { s with
            host := h.answered s.exp.base j.slot .done [⟨70, 2, s.vau.cursor⟩]
            vau := { s.vau with handJobs := rest } })

/-- CLOSE_VOLUME (R50) with its refusals in their order, and CLOSING_WRITE_COMPLETE through the steps of R51:
the valid flag 0, the header, the fields of the close record with the closing sum, the valid flag 1, and
the end with the volume closed, the accumulators cleared, the banks and the notes as the entry into NO_VOLUME
leaves them (R150), and the answer with outcome and sum. The sides that INCOMPLETE counts are those of all 2N
neither CAPTURED nor EXEMPT; the sum takes the sides in plan order, verso first (R53), by the CRC of R54; and
the bytes of the close record are those of Table 11-11. It is the model's choice that a judgement not yet taken counts as a
take outstanding (log 12), that the check bytes of a panel record with number 0 enter the closing sum as they
stand (log 45), and that step 2 waits for the answers of AMEND and HAND DONE and step 5 for the reports
and releases that FBK has not taken (log 29). -/
def Obligations.CloseVolumeFixesTheAccount : Prop :=
  (∀ (s s' : State) (i : Fin 16) (force : Bool), s.nextOrder .vau = some (⟨i, .closeVolume force⟩, s') →
    (s.vau.vol = .noVolume → exec .closeVolume s = .next (s'.answer i .noVolume))
    ∧ (s.vau.vol = .opening ∨ s.vau.vol = .cycling ∨ s.vau.vol = .closing →
      exec .closeVolume s = .next (s'.answer i .busy))
    ∧ (s.vau.vol = .ready ∨ s.vau.vol = .handWait →
      let busy := ∃ c, (s.cch.get c).state = .armed ∨ (s.cch.get c).state = .exposed
        ∨ (s.cch.get c).state = .receiving ∨ ∃ j ∈ s.vau.judgements, j.chan = c
      (busy → exec .closeVolume s = .next (s'.answer i .busy))
      ∧ (¬busy →
        (s.vau.incomplete ≠ 0 → force = false →
          exec .closeVolume s = .next (s'.answer i .incomplete [⟨72, 2, s.vau.incomplete⟩]))
        ∧ (s.vau.incomplete = 0 ∨ force = true → exec .closeVolume s = .next
          { s' with
            host := s.host.issued .vau [(s.exp.base.toNat * 4096 + 0x1000 + 38, [0])]
            vau := { s.vau with
              vol := .closing, step := none
              closeJob := some ⟨i, 1, s.vau.incomplete == 0, s.host.serial + 1⟩ } }))))
  ∧ (∀ (s : State) (j : CloseJob), s.vau.closeJob = some j →
    let a := s.exp.base.toNat * 4096 + 0x1000
    let sum := (crc ((sidesOf s.vau.mirror).flatMap (fun r => r.panels.flatMap
      (fun p => leBytes p.number 4 ++ leBytes p.check 4)))).toNat
    let bytes := closeBytes s.vau
      ⟨j.complete, ((sidesOf s.vau.mirror).map (·.takes)).sum, s.ldu.volDose, s.vau.lastFrame, sum⟩
    let goes (k : Nat) (ws : List (Nat × List Byte)) : Prop :=
      ∃ h, s.host.Completed (fun w => w.writer == .vau && w.serial < j.ticket) h
        ∧ exec .closingWriteComplete s = .next { s with
            host := h.issued .vau ws
            vau := { s.vau with closeJob := some { j with step := k, ticket := s.host.serial + ws.length } } }
    let unsettled := ∃ c, ∃ m ∈ (s.fbk.get c).inbox, m ≠ .reserve
    (j.step = 1 → goes 2 (headerParts s.exp.base s.vau))
    ∧ (j.step = 2 → s.vau.amendJobs = [] → s.vau.handJobs = [] →
        goes 3 [(a, slice bytes 0 38), (a + 39, slice bytes 39 256)])
    ∧ (j.step = 2 → (s.vau.amendJobs ≠ [] ∨ s.vau.handJobs ≠ []) → exec .closingWriteComplete s = .next s)
    ∧ (j.step = 3 → goes 4 [(a + 38, [1])])
    ∧ (j.step = 4 → unsettled → exec .closingWriteComplete s = .next s)
    ∧ (j.step = 4 → ¬unsettled → ∃ t h, exec .closingWriteComplete s = .next t
      ∧ s.host.Completed (fun w => w.writer == .vau && w.serial < j.ticket) h
      ∧ t = { s with
          exp := { s.exp with note := t.exp.note }
          vau := { Vau.reset with
            openJob := s.vau.openJob, openWaiting := s.vau.openWaiting, judgements := s.vau.judgements }
          ldu := { s.ldu with sideDose := [], volDose := 0 }
          fbk := t.fbk
          host := h.answered s.exp.base j.slot .done
            [⟨68, 1, if j.complete then 1 else 2⟩, ⟨72, 4, sum⟩] }
      ∧ t.fbk = (s.enterRest .noVolume).fbk ∧ t.exp.note = (s.enterRest .noVolume).exp.note))
  ∧ (∀ v : Vau,
    let open_ (r : SideRec) : Nat := if r.status = .captured ∨ r.status = .exempt then 0 else 1
    v.incomplete = (v.mirror.map (fun x => open_ x.verso + open_ x.recto)).sum
    ∧ (sidesOf v.mirror).length = 2 * v.mirror.length
    ∧ ∀ e x, v.mirror[e]? = some x →
      (sidesOf v.mirror)[2 * e]? = some x.verso ∧ (sidesOf v.mirror)[2 * e + 1]? = some x.recto)
  ∧ (∀ (bytes : List Byte) (b : Byte) (r : Word32),
    let shift (w : Word32) : Word32 := (w >>> 1) ^^^ (if w.getLsbD 0 = true then 0xEDB88320 else 0)
    crcByte r b = (List.range 8).foldl (fun w _ => shift w) (r ^^^ BitVec.ofNat 32 b.toNat)
    ∧ crc bytes = ~~~ (bytes.foldl crcByte 0xFFFFFFFF))
  ∧ (∀ (v : Vau) (f : CloseFields), v.text.length = 32 →
    let count (st : Status) : Nat := ((sidesOf v.mirror).filter (fun r => r.status == st)).length
    (∀ k, k < 32 → (closeBytes v f)[k]? = v.text[k]?)
    ∧ LaidOut 32 224 ((closeBytes v f).drop 32)
      [(32, 4, v.key), (36, 1, v.part), (37, 1, if f.complete then 1 else 2), (40, 2, count .pending),
       (42, 2, count .captured), (44, 2, count .retakeDue), (46, 2, count .withheld), (48, 2, count .skipped),
       (50, 2, count .exempt), (52, 4, f.totalTakes), (56, 8, f.volDose), (64, 4, f.lastFrame),
       (68, 4, f.sum)])
  ∧ (∀ v : Vau, (v.nextFrame ≠ 0 → v.lastFrame = v.nextFrame - 1)
    ∧ (v.nextFrame = 0 → v.lastFrame = 4294967295))

/-! ### The opening cycle (chapter 4) -/

/-- A RETAKE is in flight. -/
def isRetake : Option CycleOrder → Bool
  | some ⟨_, .retake ..⟩ => true
  | _ => false

/-- u is s with a cycle order accepted by R58: the order in flight, the turns remaining, nothing made yet, the
volume CYCLING, and the FAULTED channels that the order needs cleared (R138). That a report of a FAULTED channel
which OCC has not taken is dropped is the model's choice (log 46). -/
def accepted (s u : State) (i : Fin 16) (kind : CycleKind) (turns : Nat) (needs : Chan → Bool) : Prop :=
  u = { s with
    occ := { s.occ with
      order := some ⟨i, kind⟩, turnsLeft := turns, turnsMade := 0, takesMade := 0, outcome := none
      inbox := s.occ.inbox.filter (fun m => m != .faulted .left && m != .faulted .right) }
    vau := { s.vau with vol := .cycling }, cch := u.cch }
  ∧ ∀ c, u.cch.get c = if needs c = true ∧ (s.cch.get c).state = .faulted
      then { s.cch.get c with state := .idle, takeId := 0, lastDone := none, syncPending := true, lost := 0 }
      else s.cch.get c

/-- A cycle order is decided by the volume state (R58): NO_VOLUME, BUSY or HAND_WAIT outside READY, with
nothing else changed. In READY, ADVANCE n and CAPTURE are accepted and their capture phase starts (R59, R60);
TURN is answered END_OF_VOLUME at the last opening, pauses FOLDOUT_REFOLD with the stage UNFOLDED, and
otherwise asks for a turn (R60, R74); RETAKE is answered NOT_AT_OPENING or FOLDED_SIDE, or its one exposure
begins with the check of R62 (R71). That an accepted order drops a report of a FAULTED channel which OCC has not
taken is the model's choice (log 46). -/
def Obligations.CycleOrdersAreDecided : Prop :=
  (∀ (c : Instr) (o : Order) (i : Fin 16) (s s' : State), s.nextOrder .occ = some (⟨i, o⟩, s') →
    ((c = .advance ∧ ∃ n, o = .advance n) ∨ (c = .capture ∧ o = .capture) ∨ (c = .turn ∧ o = .turn)
      ∨ (c = .retake ∧ ∃ e side k, o = .retake e side k)) →
    (s.vau.vol = .noVolume → exec c s = .next (s'.answer i .noVolume))
    ∧ (s.vau.vol = .opening ∨ s.vau.vol = .closing ∨ s.vau.vol = .cycling →
      exec c s = .next (s'.answer i .busy))
    ∧ (s.vau.vol = .handWait → exec c s = .next (s'.answer i .handWait)))
  ∧ (∀ (n : Nat) (i : Fin 16) (s s' : State), s.nextOrder .occ = some (⟨i, .advance n⟩, s') →
    s.vau.vol = .ready →
    ∃ u, accepted s' u i (.advance n) n (fun _ => true) ∧ exec .advance s = .next u.startPhase)
  ∧ (∀ (i : Fin 16) (s s' : State), s.nextOrder .occ = some (⟨i, .capture⟩, s') → s.vau.vol = .ready →
    ∃ u, accepted s' u i .capture 0 (fun _ => true) ∧ exec .capture s = .next u.startPhase)
  ∧ (∀ (i : Fin 16) (s s' : State), s.nextOrder .occ = some (⟨i, .turn⟩, s') → s.vau.vol = .ready →
    (s.vau.cursor = lastOpening s.vau.plan → exec .turn s = .next (s'.answer i .endOfVolume))
    ∧ (s.vau.cursor ≠ lastOpening s.vau.plan → ∃ u, accepted s' u i .turn 0 (fun _ => false)
      ∧ (s.vau.unfolded = true → exec .turn s = .next (u.pause .foldoutRefold))
      ∧ (s.vau.unfolded = false → exec .turn s = .next u.requestTurn)))
  ∧ (∀ (e k : Nat) (side : Side) (i : Fin 16) (s s' : State),
    s.nextOrder .occ = some (⟨i, .retake e side k⟩, s') → s.vau.vol = .ready →
    let shown := (side = .verso ∧ e = s.vau.cursor) ∨ (side = .recto ∧ e = s.vau.rightEntry)
    let lies := side = .recto ∧ (planAt s.vau.plan e).kind = .foldout
      ∧ ¬(s.vau.unfolded = true ∧ s.vau.nextPanel = k)
    ((¬shown ∨ (s.vau.sideRec e side).panels.length < k) → exec .retake s = .next (s'.answer i .notAtOpening))
    ∧ (shown → k ≤ (s.vau.sideRec e side).panels.length → lies →
      exec .retake s = .next (s'.answer i .foldedSide))
    ∧ (shown → k ≤ (s.vau.sideRec e side).panels.length → ¬lies →
      ∃ u, accepted s' u i (.retake e side k) 0 (fun c => c == side.chan)
        ∧ exec .retake s = .next (u.checkInterlock
            [⟨⟨side == .verso, side == .recto⟩, .retake, false, false, true⟩])))
  ∧ (∀ s : State,
    (s.occ.pendingPause = some .cameraFault → s.requestTurn = s.pause .cameraFault)
    ∧ (s.occ.pendingPause ≠ some .cameraFault → s.requestTurn = { s with
        occ := { s.occ with work := .turning }
        tsq := { s.tsq with inbox := s.tsq.inbox ++ [.turn s.vau.cursor] } }))

/-- A capture phase (R61, R62, R69): it starts with the auto-retake counts of the two visible sides 0 and the
retake list empty, takes the first line of the table that applies, and looks at the arm and the platen only
when it has an exposure to make. A platen MOVING, which no other work leaves so here, is asked down like UP
and UNKNOWN (log 34). -/
def Obligations.PhaseTakesTheFirstLine : Prop :=
  (∀ s : State, ∃ u : State, s.startPhase = u.runPhase
    ∧ u = { s with occ := { s.occ with auto := u.occ.auto, retakes := [] } }
    ∧ ∀ e side, u.occ.autoCount e side
        = if (side = .verso ∧ e = s.vau.cursor) ∨ (side = .recto ∧ e = s.vau.rightEntry) then 0
          else s.occ.autoCount e side)
  ∧ (∀ s : State,
    let left := (s.vau.sideRec s.vau.cursor .verso).status.isTarget
    let right := (s.vau.sideRec s.vau.rightEntry .recto).status.isTarget
    let foldout := (planAt s.vau.plan s.vau.rightEntry).kind = .foldout
    let done := ((s.vau.sideRec s.vau.rightEntry .recto).panels.getD (s.vau.nextPanel - 1) ⟨0, 0⟩).number ≠ 0
    (s.vau.unfolded = true → done → s.runPhase = s.runTodo [])
    ∧ (s.vau.unfolded = true → ¬done →
      s.runPhase = s.checkInterlock [⟨⟨false, true⟩, .normal, true, false, true⟩])
    ∧ (s.vau.unfolded = false → foldout → s.occ.foldoutDone = false → right = true →
      s.runPhase = s.pause .foldoutUnfold)
    ∧ (s.vau.unfolded = false → foldout → s.occ.foldoutDone = true → left = true →
      s.runPhase = s.checkInterlock [⟨⟨true, false⟩, .normal, false, false, false⟩])
    ∧ (s.vau.unfolded = false → foldout → s.occ.foldoutDone = true → left = false → s.runPhase = s.runTodo [])
    ∧ (s.vau.unfolded = false → (¬foldout ∨ (s.occ.foldoutDone = false ∧ right = false)) →
      (left = true ∨ right = true) →
      s.runPhase = s.checkInterlock [⟨⟨left, right⟩, .normal, false, false, false⟩])
    ∧ (s.vau.unfolded = false → (¬foldout ∨ (s.occ.foldoutDone = false ∧ right = false)) →
      left = false → right = false → s.runPhase = s.runTodo []))
  ∧ (∀ (s : State) (l : List Exposure),
    (s.tsq.arm ≠ .parked → s.checkInterlock l = s.pause .armNotReady)
    ∧ (s.tsq.arm = .parked → (s.tsq.platen = .down ∨ s.tsq.platen = .contact) →
      s.checkInterlock l = s.runTodo l)
    ∧ (s.tsq.arm = .parked → (s.tsq.platen = .up ∨ s.tsq.platen = .unknown ∨ s.tsq.platen = .moving) →
      s.checkInterlock l = { s with
        occ := { s.occ with work := .platen, todo := l }
        tsq := { s.tsq with inbox := s.tsq.inbox ++ [.platen] } }))
  ∧ (∀ st : Status, st.isTarget = true ↔ st = .pending ∨ st = .skipped ∨ st = .retakeDue)

/-- The end of a capture phase (R59, R60, R69, R71, R73): a pending pause is taken, save that a RETAKE already
WITHHELD is answered DONE (log 32); an unfolded foldout pauses for its next panel or its refolding; a
CAPTURE is answered DONE; an ADVANCE is answered DONE at the last opening, with NOTE.VOLUME_END and END_REACHED
when fewer turns were made than asked, or with no turn remaining, and otherwise asks for a turn. Before it ends,
a phase makes the RETAKE-class exposure of the sides on its retake list, two-sided when both are listed, and
otherwise its next exposure (R67, R68). It is the model's choice that the pending pause comes before the pause for
FOLDOUT_PANEL or FOLDOUT_REFOLD (log 14), that a WITHHELD RETAKE ends so (log 32), and that a side is not retaken
before its own half of a split retake (log 20). -/
def Obligations.PhaseEndDecidesTheOrder : Prop :=
  (∀ (s : State) (i : Fin 16) (kind : CycleKind), s.occ.order = some ⟨i, kind⟩ →
    (∀ e side k, kind ≠ .retake e side k) →
    (∀ p : PendingPause, s.occ.pendingPause = some p →
      s.phaseEnd = s.pause (match p with | .lampFault => .lampFault | .cameraFault => .cameraFault))
    ∧ (s.occ.pendingPause = none → s.vau.unfolded = true →
      let count := (s.vau.sideRec s.vau.rightEntry .recto).panels.length
      (s.vau.nextPanel < count → s.phaseEnd = s.pause .foldoutPanel)
      ∧ (count ≤ s.vau.nextPanel → s.phaseEnd = s.pause .foldoutRefold))
    ∧ (s.occ.pendingPause = none → s.vau.unfolded = false →
      (kind = .capture → s.phaseEnd = s.endDone [])
      ∧ (∀ n, kind = .advance n →
        (s.vau.cursor = lastOpening s.vau.plan → s.phaseEnd
          = State.endDone { s with exp := { s.exp with note := s.exp.note ||| 0x10 } }
              [⟨68, 1, if s.occ.turnsMade < n then 1 else 0⟩])
        ∧ (s.vau.cursor ≠ lastOpening s.vau.plan → s.occ.turnsLeft = 0 → s.phaseEnd = s.endDone [])
        ∧ (s.vau.cursor ≠ lastOpening s.vau.plan → s.occ.turnsLeft ≠ 0 → s.phaseEnd = s.requestTurn))))
  ∧ (∀ (s : State) (i : Fin 16) (e k : Nat) (side : Side), s.occ.order = some ⟨i, .retake e side k⟩ →
    (∀ code, s.occ.outcome = some code → (s.occ.pendingPause = none ∨ code = 9) →
      s.phaseEnd = s.endDone [⟨78, 1, code⟩])
    ∧ (∀ p : PendingPause, s.occ.pendingPause = some p → s.occ.outcome ≠ some 9 →
      s.phaseEnd = s.pause (match p with | .lampFault => .lampFault | .cameraFault => .cameraFault)))
  ∧ (∀ (s : State) (panel : Bool) (sides : ChanSet),
    (∀ c, sides.has c = true ↔ (∃ i ∈ s.occ.retakes, i.side.chan = c)
      ∧ ¬∃ x ∈ s.occ.todo, x.auto = true ∧ x.sides.has c = true) →
    (sides = ⟨false, false⟩ → s.goOn panel = s.runTodo s.occ.todo)
    ∧ (sides ≠ ⟨false, false⟩ →
      s.goOn panel = s.runTodo (⟨sides, .retake, panel, true, true⟩ :: s.occ.todo)))

/-- How a cycle order ends. DONE (R59, R60): the answer with the counts, the volume READY, the reservations held
and the retake list as before. A pause (R72): the answer with reason and counts, the reservations not yet armed
released, the sides of the retake list rejected with no retake following (R68), the room watch and the pending
pause cleared, the volume READY, or HAND_WAIT with the pending hand step, its entry concerned, which is the next
physical entry after the cursor but for a failed turn, and NOTE.HAND (R47). STOPPED (R76): the answer
with the counts, the volume READY, once FBK has answered every release it was asked for; the room watch is stopped
at once (R11, R75). Every STOP being carried out is answered DONE with each of them. The writes issued are, in this
order and no others, the changed entries and the header (R36, R37), the order's answer, and the answers to the
STOPs. The banks and the notes then are as the entry into the volume state leaves them after the releases (R150).
That the reservations are released in the event of the end itself is the model's choice (log 13). The codes of
the reasons are those of Table 11-13. -/
def Obligations.OrdersEndWhole : Prop :=
  ∀ (s : State) (o : CycleOrder), s.occ.order = some o →
    let counts : List FieldVal := [⟨70, 2, s.occ.turnsMade⟩, ⟨72, 2, s.occ.takesMade⟩]
    let ended := fun (t rest : State) (code : AnswerCode) (fields : List FieldVal)
        (ledger : List (Nat × List Byte)) =>
      t = { s with
        exp := { s.exp with note := t.exp.note }
        vau := t.vau, occ := t.occ, fbk := t.fbk, host := t.host }
      ∧ t.host = s.occ.stops.foldl (fun h i => h.answered s.exp.base i .done [])
          ((s.host.issued .vau ledger).answered s.exp.base o.slot code fields)
      ∧ t.fbk = (rest.enterRest t.vau.vol).fbk ∧ t.exp.note = (rest.enterRest t.vau.vol).exp.note
      ∧ t.occ = { s.occ with
          order := none, pendingPause := none, roomWatch := none, work := .none, todo := []
          awaiting := ⟨false, false⟩, stops := [], outcome := none
          held := t.occ.held, retakes := t.occ.retakes }
    let released := fun (t : State) => t.occ.held = ⟨none, none⟩
      ∧ ∀ c r, s.occ.held.get c = some r → ((s.fbk.get c).bank r.bank).desc r.index = .reserved →
          ((t.fbk.get c).bank r.bank).desc r.index = .free
    (∀ fields, ended (s.endDone fields) s .done (counts ++ fields) []
      ∧ (s.endDone fields).occ.held = s.occ.held ∧ (s.endDone fields).occ.retakes = s.occ.retakes
      ∧ (s.endDone fields).vau = { s.vau with vol := .ready })
    ∧ (∃ u : State,
      let step (c : Chan) (a b : State) : Prop := (a.occ.held.get c = none → b = a)
        ∧ ∀ r, a.occ.held.get c = some r →
            b = State.releaseDesc { a with occ := { a.occ with held := a.occ.held.set c none } } c r.bank r.index
      step .left s u ∧ step .right u s.releaseHeld)
    ∧ released s.endStopped
    ∧ (s.occ.releasing = ⟨false, false⟩ → ended s.endStopped s.releaseHeld .stopped counts []
      ∧ s.endStopped.occ.retakes = s.occ.retakes
      ∧ s.endStopped.vau = { s.vau with vol := .ready })
    ∧ (s.occ.releasing ≠ ⟨false, false⟩ → s.endStopped = { s with
        exp := { s.exp with note := s.releaseHeld.exp.note }
        occ := { s.occ with held := ⟨none, none⟩, work := .releasing, roomWatch := none }
        fbk := s.releaseHeld.fbk })
    ∧ [Reason.liftFailed, .doubleLift, .leafDropped, .stall, .foldoutUnfold, .foldoutPanel, .foldoutRefold,
        .doseLimit, .noRoom, .lampFault, .cameraFault, .armNotReady].map (·.code)
      = [1, 2, 3, 4, 5, 6, 7, 8, 9, 10, 11, 12]
    ∧ (∀ (reason : Reason) (bound : Nat), s.pause reason bound = s.pauseAt reason s.vau.rightEntry bound)
    ∧ (∀ (reason : Reason) (entry bound : Nat),
      let t := s.pauseAt reason entry bound
      let byHand := 1 ≤ reason.code ∧ reason.code ≤ 7
      let r := s.releaseHeld
      let rest : State := { r with exp := { r.exp with note := r.exp.note ||| (if byHand then 0x08 else 0) } }
      ended t rest .paused (counts ++ [⟨69, 1, reason.code⟩]
          ++ (if byHand then [⟨74, 2, entry⟩] else [])
          ++ (if reason = .lampFault then [⟨76, 1, s.ldu.retired.toNat⟩] else [])
          ++ (if reason = .doseLimit then [⟨77, 1, bound⟩] else []))
          (ledgerWrites s.exp.base s.vau t.vau false)
      ∧ released t ∧ t.occ.retakes = []
      ∧ t.vau = { s.vau with vol := t.vau.vol, step := t.vau.step, mirror := t.vau.mirror }
      ∧ (byHand → t.vau.vol = .handWait ∧ t.vau.step = some ⟨reason, entry⟩
          ∧ t.exp.note.getLsbD 3 = true)
      ∧ (¬byHand → t.vau.vol = .ready ∧ t.vau.step = s.vau.step)
      ∧ ∀ e x, s.vau.mirror[e]? = some x → ∃ y, t.vau.mirror[e]? = some y
          ∧ y = { x with
              verso := { x.verso with status := y.verso.status }
              recto := { x.recto with status := y.recto.status } }
          ∧ (∀ side, (y.sideRec side).status
              = if (∃ r ∈ s.occ.retakes, r.leaf = e ∧ r.side = side)
                  ∧ ((x.sideRec side).status = .pending ∨ (x.sideRec side).status = .skipped)
                then .retakeDue else (x.sideRec side).status))

/-- The begin of an exposure (R63, R64, R73): a pending CAMERA_FAULT or a FAULTED channel pauses, an
outstanding take is waited for, an exposure whose sides are all lost is passed over, and otherwise a
descriptor is asked, LEFT first.
RESERVATION_ANSWER with a descriptor goes on to the RIGHT channel or to admission, with NO_ROOM starts the
room wait, and with DONE to a release ends a stopped order that waits for it alone (R76, R147); GRANT_REPORT ends
the wait and asks again; ROOM_WATCH_EXPIRY pauses NO_ROOM. A stopped order ends at its reservation's answer (R75),
and at NO_ROOM too, which is the model's choice (log 19). -/
def Obligations.ExposuresWaitAndReserve : Prop :=
  (∀ (s : State) (x : Exposure) (rest : List Exposure),
    let faulted := s.occ.pendingPause = some .cameraFault
      ∨ ∃ c, x.sides.has c = true ∧ (s.cch.get c).state = .faulted
    let busy := ∃ c, x.sides.has c = true ∧ ((s.cch.get c).state = .armed ∨ (s.cch.get c).state = .exposed
      ∨ (s.cch.get c).state = .receiving)
    (faulted → s.runTodo (x :: rest) = s.pause .cameraFault)
    ∧ (¬faulted → busy → s.runTodo (x :: rest)
      = { s with occ := { s.occ with work := .channelWait x, todo := rest } })
    ∧ (¬faulted → ¬busy → ∃ y : Exposure, y = { x with sides := y.sides }
      ∧ (∀ c, y.sides.has c = (x.sides.has c && (x.keep || s.vau.isTarget c)))
      ∧ ((∀ c, y.sides.has c = false) → s.runTodo (x :: rest) = s.runTodo rest)
      ∧ (∀ c, y.sides.has c = true → (c = .right → y.sides.has .left = false) →
        s.runTodo (x :: rest) = { s with
          occ := { s.occ with work := .reserving y c, todo := rest }
          fbk := s.fbk.set c { s.fbk.get c with inbox := (s.fbk.get c).inbox ++ [.reserve] } }))
    ∧ s.runTodo [] = State.phaseEnd { s with occ := { s.occ with work := .none, todo := [] } })
  ∧ (∀ (c : Chan) (r : Reservation) (x : Exposure) (s s' : State),
    s.nextMsg (.fbk c) = some (.reserved c r, s') → s.occ.work = .reserving x c →
    ∃ u, u = { s' with occ := { s'.occ with held := s.occ.held.set c (some r) } }
      ∧ (s.occ.stops ≠ [] → exec (.reservationAnswer c) s = .next u.endStopped)
      ∧ (s.occ.stops = [] → c = .left → x.sides.has .right = true →
        (s.cch.right.state = .faulted → exec (.reservationAnswer c) s = .next (u.pause .cameraFault))
        ∧ (s.cch.right.state ≠ .faulted → exec (.reservationAnswer c) s = .next { u with
            occ := { u.occ with work := .reserving x .right }
            fbk := s.fbk.set .right { s.fbk.right with inbox := s.fbk.right.inbox ++ [.reserve] } }))
      ∧ (s.occ.stops = [] → (c = .right ∨ x.sides.has .right = false) →
        exec (.reservationAnswer c) s = .next { u with
          occ := { u.occ with work := .admitting x }
          ldu := { s.ldu with inbox := s.ldu.inbox ++ [.request x.sides x.cls] } }))
  ∧ (∀ (c : Chan) (x : Exposure) (s s' : State),
    s.nextMsg (.fbk c) = some (.noRoom c, s') → s.occ.work = .reserving x c →
    (s.occ.stops ≠ [] → exec (.reservationAnswer c) s = .next s'.endStopped)
    ∧ (s.occ.stops = [] → exec (.reservationAnswer c) s = .next { s' with
        occ := { s'.occ with roomWatch := some s.profile.roomClass, work := .roomWait x c } }))
  ∧ (∀ (c : Chan) (s s' : State), s.nextMsg (.fbk c) = some (.released c, s') →
    let u : State := { s' with occ := { s'.occ with releasing := s.occ.releasing.set c false } }
    (s.occ.work = .releasing → exec (.reservationAnswer c) s = .next u.endStopped)
    ∧ (s.occ.work ≠ .releasing → exec (.reservationAnswer c) s = .next u))
  ∧ (∀ (c : Chan) (x : Exposure) (s s' : State),
    s.nextMsg (.fbk c) = some (.granted c, s') → s.occ.work = .roomWait x c →
    ((s.cch.get c).state = .faulted → exec (.grantReport c) s = .next (s'.pause .cameraFault))
    ∧ ((s.cch.get c).state ≠ .faulted → exec (.grantReport c) s = .next { s' with
        occ := { s'.occ with roomWatch := none, work := .reserving x c }
        fbk := s.fbk.set c { s.fbk.get c with inbox := (s.fbk.get c).inbox ++ [.reserve] } }))
  ∧ (∀ (c : Chan) (s s' : State), s.nextMsg (.fbk c) = some (.granted c, s') →
    (∀ x, s.occ.work ≠ .roomWait x c) → exec (.grantReport c) s = .next s')
  ∧ (∀ (x : Exposure) (c : Chan) (k : Nat) (s : State), s.occ.work = .roomWait x c →
    s.occ.roomWatch = some k → k ≠ 0 → exec .roomWatchExpiry s = .next (s.pause .noRoom))

/-- ADMISSION_ANSWER (R43, R65, R66, R75): ADMITTED asks each channel to arm with the time, the leaf, the side
and the panel of its page, SPLIT releases both reservations and makes the two halves LEFT first, WITHHELD
withholds the side and releases its reservation, DOSE_LIMIT pauses. A stopped order ends at ABANDONED. It is the
model's choice that after any other answer a stopped order waits for the answer to its abandon (log 18), that
DOSE_LIMIT makes no pause then (log 19), and that these releases go to FBK as requests (log 13). The codes of the
bounds are those of Table 11-4. -/
def Obligations.AdmissionAnswersSteerTheExposure : Prop :=
  (∀ (x : Exposure) (s s' : State), s.occ.work = .admitting x → s.occ.stops = [] →
    (∀ time d, s.nextMsg .ldu = some (.admission (.admitted time d), s') →
      ∃ t, exec .admissionAnswer s = .next t
        ∧ t = { s' with occ := { s'.occ with work := .arming x ⟨false, false⟩ ⟨false, false⟩,
                                             held := t.occ.held }, cch := t.cch }
        ∧ ∀ c,
          (∀ r, x.sides.has c = true → s.occ.held.get c = some r →
            t.occ.held.get c = none
            ∧ t.cch.get c = { s.cch.get c with arms := (s.cch.get c).arms
                ++ [⟨r, time, s.vau.pageEntry c, if c = .left then .verso else .recto,
                    if c = .right ∧ (planAt s.vau.plan s.vau.rightEntry).kind = .foldout
                    then s.vau.nextPanel else 1⟩] })
          ∧ (x.sides.has c = false → t.occ.held.get c = s.occ.held.get c ∧ t.cch.get c = s.cch.get c))
    ∧ (s.nextMsg .ldu = some (.admission .split, s') → exec .admissionAnswer s
        = .next (State.runTodo ((s'.askRelease .left).askRelease .right)
            ({ x with sides := ⟨true, false⟩ } :: { x with sides := ⟨false, true⟩ } :: s.occ.todo)))
    ∧ (∀ c b, s.nextMsg .ldu = some (.admission (.withheld c b), s') → exec .admissionAnswer s
        = .next (State.goOn ((s'.applyWithhold x c).askRelease c) x.panel))
    ∧ (∀ c b, s.nextMsg .ldu = some (.admission (.doseLimit c b), s') →
        exec .admissionAnswer s = .next (s'.pause .doseLimit b.code)))
  ∧ (∀ (x : Exposure) (s s' : State), s.occ.work = .admitting x → s.occ.stops ≠ [] →
    (s.nextMsg .ldu = some (.admission .abandoned, s') → exec .admissionAnswer s = .next s'.endStopped)
    ∧ (∀ a, s.nextMsg .ldu = some (.admission a, s') →
      (∃ time d, a = .admitted time d) ∨ a = .split ∨ (∃ c b, a = .doseLimit c b) →
      exec .admissionAnswer s = .next { s' with occ := { s'.occ with work := .cancelling } })
    ∧ (∀ c b, s.nextMsg .ldu = some (.admission (.withheld c b), s') → exec .admissionAnswer s
        = .next (State.setWork (s'.applyWithhold x c) .cancelling)))
  ∧ (∀ (s : State) (c : Chan),
    (s.occ.held.get c = none → s.askRelease c = s)
    ∧ (∀ r, s.occ.held.get c = some r → s.askRelease c = { s with
        occ := { s.occ with held := s.occ.held.set c none, releasing := s.occ.releasing.set c true }
        fbk := s.fbk.set c { s.fbk.get c with
          inbox := (s.fbk.get c).inbox ++ [.release r.bank r.index] } }))
  ∧ (∀ (s : State) (x : Exposure) (c : Chan), ∃ t, s.applyWithhold x c = t
    ∧ t = { s with
        vau := { s.vau with mirror := t.vau.mirror }, host := t.host
        occ := { s.occ with retakes := t.occ.retakes, outcome := t.occ.outcome } }
    ∧ t.host = s.host.issued .vau (ledgerWrites s.exp.base s.vau t.vau false)
    ∧ (isRetake s.occ.order = true → t.occ.outcome = some 9)
    ∧ (isRetake s.occ.order = false → t.occ.outcome = s.occ.outcome)
    ∧ t.occ.retakes = (if x.auto = true then s.occ.retakes.filter (fun i => i.side != pageSide c)
        else s.occ.retakes)
    ∧ ∀ e y, s.vau.mirror[e]? = some y → ∃ z, t.vau.mirror[e]? = some z
        ∧ z = { y with
            verso := { y.verso with status := z.verso.status }
            recto := { y.recto with status := z.recto.status } }
        ∧ ∀ side, (z.sideRec side).status
            = if e = s.vau.pageEntry c ∧ side = (if c = .left then Side.verso else .recto)
                ∧ ((y.sideRec side).status = .pending ∨ (y.sideRec side).status = .skipped
                  ∨ (y.sideRec side).status = .retakeDue)
              then .withheld else (y.sideRec side).status)
  ∧ [Bound.sideLeft, .sideRight, .volume].map (·.code) = [1, 2, 3]

/-- ARMED_ANSWER (R66, R68, R75): the take is counted, an automatic retake's side leaves the retake list, and
after the last answer OCC asks to fire, or cancels a stopped exposure for the channels that are armed.
FIRE_ANSWER (R66, R67, R73, R75): strobe end goes on, awaits the judgements or takes a pending CAMERA_FAULT;
NOT_READY pauses. CANCEL_ANSWER ends the stopped order (R76). A judgement of an
earlier take on a channel of the exposure, still to be taken at the fire request, is late (R67). It is the model's
choice that the judgements are awaited from the fire request on (log 22), with the late ones marked then (log 12), that NOT_READY makes no pause of a stopped order (log 19), which waits
for its CANCEL_ANSWER (log 18), and that a RETAKE too pauses at its strobe end for a pending CAMERA_FAULT
(log 37). -/
def Obligations.ArmedExposuresFire : Prop :=
  (∀ (c : Chan) (x : Exposure) (answered armed : ChanSet) (s s' : State),
    s.nextMsg (.cch c) = some (.armed c true, s') → s.occ.work = .arming x answered armed →
    let u : State := { s' with occ := { s'.occ with
      takesMade := s.occ.takesMade + 1
      work := .arming x (answered.set c true) (armed.set c true)
      retakes := if x.auto then s.occ.retakes.filter (fun i => i.side != pageSide c) else s.occ.retakes } }
    let passed : List Judgement := s.vau.judgements.map
      (fun j => if x.sides.has j.chan = true then { j with late := true } else j)
    (answered.set c true ≠ x.sides → exec (.armedAnswer c) s = .next u)
    ∧ (answered.set c true = x.sides → s.occ.stops = [] → armed.set c true = x.sides →
      exec (.armedAnswer c) s = .next { u with
        occ := { u.occ with
          work := .firing x
          awaiting := if s.profile.wait = true ∨ x.panel = true ∨ isRetake s.occ.order = true
            then x.sides else ⟨false, false⟩ }
        vau := { s.vau with judgements := passed }
        ldu := { s.ldu with inbox := s.ldu.inbox ++ [.fire] } })
    ∧ (answered.set c true = x.sides → s.occ.stops ≠ [] → exec (.armedAnswer c) s = .next { u with
        occ := { u.occ with work := .cancelling }
        ldu := { s.ldu with inbox := s.ldu.inbox ++ [.cancel (armed.set c true)] } }))
  ∧ (∀ (x : Exposure) (s s' : State), s.occ.work = .firing x →
    let awaited := s.profile.wait = true ∨ x.panel = true
      ∨ isRetake s.occ.order = true
    (s.nextMsg .ldu = some (.fire .strobeEnd, s') →
      (s.occ.stops ≠ [] → exec .fireAnswer s = .next { s' with occ := { s'.occ with work := .cancelling } })
      ∧ (s.occ.stops = [] → s.occ.pendingPause = some .cameraFault →
        exec .fireAnswer s = .next (s'.pause .cameraFault))
      ∧ (s.occ.stops = [] → s.occ.pendingPause ≠ some .cameraFault → ¬awaited →
        exec .fireAnswer s = .next (s'.runTodo s.occ.todo))
      ∧ (s.occ.stops = [] → s.occ.pendingPause ≠ some .cameraFault → awaited →
        ∃ u : State, u = { s' with occ := { s'.occ with work := .judging x } }
          ∧ (s.occ.awaiting ≠ ⟨false, false⟩ → exec .fireAnswer s = .next u)
          ∧ (s.occ.awaiting = ⟨false, false⟩ → exec .fireAnswer s = .next (u.goOn x.panel))))
    ∧ (s.nextMsg .ldu = some (.fire .notReady, s') →
      (s.occ.stops ≠ [] → exec .fireAnswer s = .next { s' with occ := { s'.occ with work := .cancelling } })
      ∧ (s.occ.stops = [] → exec .fireAnswer s = .next (s'.pause .armNotReady)))
    ∧ (s.nextMsg .ldu = some (.fire .aborted, s') → exec .fireAnswer s = .next s'.endStopped))
  ∧ (∀ s s' : State, s.nextMsg .ldu = some (.done, s') →
    (s.occ.work = .cancelling → exec .cancelAnswer s = .next s'.endStopped)
    ∧ (s.occ.work ≠ .cancelling → exec .cancelAnswer s = .next s'))

/-- PLATEN_COMPLETION (R62, R76) and TURN_COMPLETION (R59, R60, R74, R76): a turn made moves the cursor with skip
marking, FOLDED, panel 1 and foldout finished 0, counts the turn, and an ADVANCE goes on with its next capture
phase; every failure pauses with its reason, with the entry it carries as the entry concerned (R47), and leaves the
cursor unchanged. LAMP_FAULT_REPORT and
CAMERA_FAULT_REPORT record a pending pause of an order in flight, and a FAULTED channel pauses at once an order
that waits (R73). That this holds of a RETAKE that awaits its judgement (log 37), that ARM_NOT_READY ends a
stopped order STOPPED (log 19), and that every failure carries its entry (log 48), are the model's choices. -/
def Obligations.TurnsAndFaultsReachTheOrder : Prop :=
  (∀ s s' : State, s.occ.work = .platen →
    (s.nextMsg .tsq = some (.platen false, s') → exec .platenCompletion s = .next (s'.pause .stall))
    ∧ (s.nextMsg .tsq = some (.platen true, s') →
      (s.occ.stops ≠ [] → exec .platenCompletion s = .next s'.endStopped)
      ∧ (s.occ.stops = [] → exec .platenCompletion s = .next (s'.runTodo s.occ.todo))))
  ∧ (∀ s s' : State, s.occ.work = .turning →
    (∀ r, s.nextMsg .tsq = some (.turn (.turned r), s') →
      ∃ u : State, u = { s' with
          vau := { s.vau with
            cursor := r, unfolded := false, nextPanel := 1
            mirror := skipMark s.vau.plan s.vau.cursor r s.vau.mirror }
          occ := { s'.occ with
            foldoutDone := false, work := .none
            turnsMade := s.occ.turnsMade + 1, turnsLeft := s.occ.turnsLeft - 1 }
          host := u.host }
        ∧ u.host = s.host.issued .vau (ledgerWrites s.exp.base s.vau u.vau false)
        ∧ (s.occ.stops ≠ [] → exec .turnCompletion s = .next u.endStopped)
        ∧ (s.occ.stops = [] → s.occ.pendingPause = some .cameraFault →
          exec .turnCompletion s = .next (u.pause .cameraFault))
        ∧ (s.occ.stops = [] → s.occ.pendingPause ≠ some .cameraFault →
          (∀ i n, s.occ.order = some ⟨i, .advance n⟩ → exec .turnCompletion s = .next u.startPhase)
          ∧ (∀ i, s.occ.order = some ⟨i, .turn⟩ → exec .turnCompletion s = .next (u.endDone []))))
    ∧ (∀ reason entry, s.nextMsg .tsq = some (.turn (.failed reason entry), s') →
      exec .turnCompletion s = .next (s'.pauseAt reason entry))
    ∧ (s.nextMsg .tsq = some (.turn .stopped, s') → exec .turnCompletion s = .next s'.endStopped)
    ∧ (s.nextMsg .tsq = some (.turn .armNotReady, s') →
      (s.occ.stops = [] → exec .turnCompletion s = .next (s'.pause .armNotReady))
      ∧ (s.occ.stops ≠ [] → exec .turnCompletion s = .next s'.endStopped)))
  ∧ (∀ s s' : State, s.nextMsg .ldu = some (.lampFault, s') →
    (s.occ.order ≠ none → s.occ.pendingPause = none → exec .lampFaultReport s
      = .next { s' with occ := { s'.occ with pendingPause := some .lampFault } })
    ∧ ((s.occ.order = none ∨ s.occ.pendingPause ≠ none) → exec .lampFaultReport s = .next s'))
  ∧ (∀ (c : Chan) (s s' : State), s.nextMsg (.cch c) = some (.faulted c, s') →
    let waits := (∃ x d, s.occ.work = .roomWait x d) ∨ (∃ x, s.occ.work = .judging x)
      ∨ ∃ x, s.occ.work = .channelWait x
    (s.occ.order ≠ none → s.occ.pendingPause = none → waits →
      exec (.cameraFaultReport c) s = .next (s'.pause .cameraFault))
    ∧ (s.occ.order ≠ none → s.occ.pendingPause = none → ¬waits → exec (.cameraFaultReport c) s
      = .next { s' with occ := { s'.occ with pendingPause := some .cameraFault } })
    ∧ ((s.occ.order = none ∨ s.occ.pendingPause ≠ none) → exec (.cameraFaultReport c) s = .next s'))

/-- JUDGEMENT_TAKEN (R39 to R42, R67, R68, R135): one more take of the side, up to 255. An acceptance with a
number left writes the panel record, makes a side whose panels are all accepted CAPTURED unless it is EXEMPT,
moves the next number on and gives the number to the channel's result; an awaited rejection below the limit,
with no pause pending, not the one that made its channel FAULTED, joins the retake list with the status left and
adds 1 to its side's auto-retake count; every other judgement is applied as a rejection with no retake following.
A judgement marked late is not awaited (R67; log
12). An ACCEPTED one ends the channel's run of LOST takes. The changed entry, the header where R37 asks for it, and then
the result are written. OCC then goes on where it waited. It is the model's choice that the number and the result come in
this event and not in the channel's (log 21), and that an acceptance for a panel beyond the side's list consumes
the number and writes no panel record, the status following R41 over the list as it stands (log 39). -/
def Obligations.JudgementsReachTheLedger : Prop :=
  (∀ (c : Chan) (j : Judgement) (rest : List Judgement) (s : State),
    takeJudgement c s.vau.judgements = some (j, rest) →
    let u : State := State.applyJudgement { s with vau := { s.vau with judgements := rest } } j
    let again := j.outcome ≠ .accepted ∧ s.occ.awaiting.has c = true ∧ j.late = false
      ∧ isRetake s.occ.order = false
      ∧ s.occ.autoCount j.leaf j.side < s.profile.autoLimit
      ∧ s.occ.pendingPause = none ∧ j.madeFaulted = false
    let numbered := j.outcome = .accepted ∧ s.vau.nextFrame ≠ 0
    exec (.judgementTaken c) s
      = .next (State.pollWait (State.afterJudged { u with occ := u.occ.judgementSeen j }))
    ∧ u = { s with
        vau := { s.vau with judgements := rest, mirror := u.vau.mirror, nextFrame := u.vau.nextFrame }
        occ := { s.occ with auto := u.occ.auto, retakes := u.occ.retakes }
        cch := u.cch, host := u.host }
    ∧ (again → u.occ.retakes = s.occ.retakes ++ [⟨j.leaf, j.side, j.panel⟩]
      ∧ ∀ e side, e < s.occ.auto.length → u.occ.autoCount e side
          = s.occ.autoCount e side + if e = j.leaf ∧ side = j.side then 1 else 0)
    ∧ (¬again → u.occ = s.occ)
    ∧ (numbered → u.vau.nextFrame = (s.vau.nextFrame + 1) % 4294967296)
    ∧ (¬numbered → u.vau.nextFrame = s.vau.nextFrame)
    ∧ (let h := s.host.issued .vau (ledgerWrites s.exp.base s.vau u.vau false)
      let waits (r : ResultJob) (k : TakeRec) : Prop := j.outcome = .accepted
        ∧ (s.cch.get c).result = some r ∧ r.awaitsNumber = true ∧ (s.cch.get c).take = some k
      (∀ r k, waits r k →
        let numbered : Result := { r.result with number := s.vau.nextFrame }
        u.cch = s.cch.set c { s.cch.get c with
          result := some { r with awaitsNumber := false, result := numbered }, lost := 0 }
        ∧ u.host = h.issued (.result c)
            [(s.descAddress c k.desc.bank k.desc.index + 12, resultBytes numbered)])
      ∧ ((∀ r k, ¬waits r k) → u.host = h
        ∧ (j.outcome = .accepted → u.cch = s.cch.set c { s.cch.get c with lost := 0 })
        ∧ (j.outcome ≠ .accepted → u.cch = s.cch)))
    ∧ (∀ e x, s.vau.mirror[e]? = some x → ∃ y, u.vau.mirror[e]? = some y
      ∧ y = { x with verso := y.verso, recto := y.recto }
      ∧ (∀ side, ¬(e = j.leaf ∧ side = j.side) → y.sideRec side = x.sideRec side)
      ∧ (e = j.leaf →
        (y.sideRec j.side).takes = min 255 ((x.sideRec j.side).takes + 1)
        ∧ (y.sideRec j.side).dose = (x.sideRec j.side).dose
        ∧ (numbered → (y.sideRec j.side).panels
              = (x.sideRec j.side).panels.set (j.panel - 1) ⟨s.vau.nextFrame, j.check⟩
            ∧ (y.sideRec j.side).status
              = if (x.sideRec j.side).status ≠ .exempt ∧ ∀ p ∈ (y.sideRec j.side).panels, p.number ≠ 0
                then .captured else (x.sideRec j.side).status)
        ∧ (¬numbered → (y.sideRec j.side).panels = (x.sideRec j.side).panels)
        ∧ (again → (y.sideRec j.side).status = (x.sideRec j.side).status)
        ∧ (¬numbered → ¬again → (y.sideRec j.side).status
            = if (x.sideRec j.side).status = .pending ∨ (x.sideRec j.side).status = .skipped
              then .retakeDue else (x.sideRec j.side).status))))
  ∧ (∀ (c : Chan) (l r : List Judgement) (j : Judgement), takeJudgement c l = some (j, r) ↔
    ∃ a b, l = a ++ j :: b ∧ r = a ++ b ∧ j.chan = c ∧ ∀ x ∈ a, x.chan ≠ c)
  ∧ (∀ (o : Occ) (j : Judgement),
    (o.awaiting.has j.chan = false ∨ j.late = true → o.judgementSeen j = o)
    ∧ (o.awaiting.has j.chan = true → j.late = false → o.judgementSeen j = { o with
        awaiting := o.awaiting.set j.chan false
        outcome := if isRetake o.order = true
          then some j.outcome.code else o.outcome }))
  ∧ (∀ (s : State),
    (∀ x, s.occ.work = .judging x → s.occ.awaiting = ⟨false, false⟩ → s.afterJudged = s.goOn x.panel)
    ∧ ((∀ x, s.occ.work ≠ .judging x) ∨ s.occ.awaiting ≠ ⟨false, false⟩ → s.afterJudged = s))

/-- STOP (R75): with no cycle order in flight it is answered by the volume state; a second one joins the first;
the first abandons the retake list and every awaited judgement, ends an order that waits, passes to the turn
sequencer, abandons an admission with the reservations released, aborts a strobe, and otherwise lets the answers
asked for come in. That the descriptors of an abandoned admission are FREE at FBK in the event of the STOP itself
is the model's choice (log 13). -/
def Obligations.StopActsOnEachPieceOfWork : Prop :=
  ∀ (i : Fin 16) (s s' : State), s.nextOrder .occ = some (⟨i, .stop⟩, s') →
    (s.occ.order = none →
      (s.vau.vol = .noVolume ∨ s.vau.vol = .ready → exec .stop s = .next (s'.answer i .done))
      ∧ (s.vau.vol = .handWait → exec .stop s = .next (s'.answer i .handWait))
      ∧ (s.vau.vol = .opening ∨ s.vau.vol = .closing → exec .stop s = .next (s'.answer i .busy)))
    ∧ (s.occ.order ≠ none → s.occ.stops ≠ [] →
      exec .stop s = .next { s' with occ := { s'.occ with stops := s.occ.stops ++ [i] } })
    ∧ (s.occ.order ≠ none → s.occ.stops = [] →
      ∃ u : State, u = { s' with
          vau := { s.vau with mirror := u.vau.mirror }, host := u.host
          occ := { s'.occ with stops := [i], awaiting := ⟨false, false⟩, retakes := [] } }
        ∧ u.host = s.host.issued .vau (ledgerWrites s.exp.base s.vau u.vau false)
        ∧ (∀ e x, s.vau.mirror[e]? = some x → ∃ y, u.vau.mirror[e]? = some y
            ∧ y = { x with
                verso := { x.verso with status := y.verso.status }
                recto := { x.recto with status := y.recto.status } }
            ∧ (∀ side, (y.sideRec side).status
                = if (∃ r ∈ s.occ.retakes, r.leaf = e ∧ r.side = side)
                    ∧ ((x.sideRec side).status = .pending ∨ (x.sideRec side).status = .skipped)
                  then .retakeDue else (x.sideRec side).status))
        ∧ (s.occ.work = .none ∨ (∃ x, s.occ.work = .channelWait x) ∨ (∃ x c, s.occ.work = .roomWait x c)
            ∨ (∃ x, s.occ.work = .judging x) → exec .stop s = .next u.endStopped)
        ∧ (s.occ.work = .platen ∨ s.occ.work = .turning →
          exec .stop s = .next { u with tsq := { s.tsq with inbox := s.tsq.inbox ++ [.stop] } })
        ∧ (∀ x, s.occ.work = .admitting x → ∃ v, v = u.releaseHeld ∧ v.occ.held = ⟨none, none⟩
            ∧ (∀ c r, s.occ.held.get c = some r → ((s.fbk.get c).bank r.bank).desc r.index = .reserved →
                ((v.fbk.get c).bank r.bank).desc r.index = .free)
            ∧ exec .stop s = .next { v with ldu := { s.ldu with inbox := s.ldu.inbox ++ [.abandon] } })
        ∧ (∀ x, s.occ.work = .firing x →
          exec .stop s = .next { u with ldu := { s.ldu with inbox := s.ldu.inbox ++ [.abort] } })
        ∧ ((∃ x c, s.occ.work = .reserving x c) ∨ (∃ x a b, s.occ.work = .arming x a b)
            ∨ s.occ.work = .cancelling ∨ s.occ.work = .releasing → exec .stop s = .next u))

/-- The volume state and the work in flight agree over every step (R18, R26, R28, R47, R50, R57, R58). -/
def Obligations.VolumeStateCoherentKept : Prop :=
  ∀ s t : State, s.VolumeCoherent → step s = .next t → t.VolumeCoherent

/-! ### Page turning (chapter 5) -/

/-- The turn of r ended, or a platen request: no work in flight and every watch of the work stopped (R77). -/
def workEnded (t : Tsq) : Tsq :=
  { t with work := .none, stage := none, retryWatch := none, stageWatch := none, cutWatch := none }

/-- The sequencer in SEPARATE (R82, R83): one more attempt, at the base level of the leaf's kind plus the heavy
readings, 7 at the most; the first of the turn starts the retry window. -/
def separating (s : State) (t : Tsq) (r : Nat) : Tsq :=
  { t with
    stage := some .separate, stageWatch := none
    retryWatch := if t.attempts = 0 then some s.profile.retryClass else t.retryWatch
    attempts := t.attempts + 1
    level := min 7 ((s.profile.kind (planAt s.vau.plan r).kind).knife + t.heavy) }

/-- TURN_REQUEST and PLATEN_REQUEST (R81, R89), TSQ_STOP (R95), and PLATEN_DOWN with its ends (R87, R89, R90). A
fall of ready-to-light in the event of a change waits at the light unit while a strobe is lit (R80, R120). A
STOP that finds no turn and no platen request changes nothing else. That the last pressure reading counts at the
begin of PLATEN_DOWN, also one from before the stage (log 42), and that LIFT_FAILED and DOUBLE_LIFT carry the entry
of the turn (log 48), are the model's choices. -/
def Obligations.TurnsBeginAndAreStopped : Prop :=
  (∀ (s : State) (before : Bool), s.settle before
    = if before = true ∧ s.tsq.ready = false ∧ s.ldu.state = .lit then { s with ldu := { s.ldu with fall := true } }
      else s)
  ∧ (∀ (c : Nat) (rest : List TsqMsg) (s : State), s.tsq.inbox = .turn c :: rest →
    let r := nextPhysical s.vau.plan c
    let t : Tsq := { s.tsq with
      inbox := rest, work := .turn c r, attempts := 0, heavy := 0, windowClosed := false, failure := none
      stopTaken := false, turnedBack := false
      level := (s.profile.kind (planAt s.vau.plan r).kind).knife }
    ((s.tsq.arm ≠ .parked ∨ s.tsq.vacuum ≠ .off ∨ s.tsq.work ≠ .none) → exec .turnRequest s = .next { s with
      tsq := { s.tsq with inbox := rest }, occ := { s.occ with inbox := s.occ.inbox ++ [.turn .armNotReady] } })
    ∧ (s.tsq.arm = .parked → s.tsq.vacuum = .off → s.tsq.work = .none →
      (s.ldu.bankLit = true → exec .turnRequest s = .next { s with tsq := { t with stage := some .waitDark } })
      ∧ (s.ldu.bankLit = false → s.tsq.platen = .up → s.tsq.upSw = true → exec .turnRequest s = .next { s with
          tsq := { t with arm := .moving, stage := some .reach, stageWatch := some s.profile.armClass } })
      ∧ (s.ldu.bankLit = false → (s.tsq.platen ≠ .up ∨ s.tsq.upSw = false) → exec .turnRequest s
        = .next (State.settle { s with tsq := { t with
            stage := some .platenUp, platen := .moving, stageWatch := some s.profile.platenClass } } s.tsq.ready))))
  ∧ (∀ (rest : List TsqMsg) (s : State), s.tsq.inbox = .platen :: rest →
    (s.tsq.work = .none → exec .platenRequest s = .next (State.settle
      (State.beginPlatenDown { s with tsq := { s.tsq with inbox := rest, work := .platen } }) s.tsq.ready))
    ∧ (s.tsq.work ≠ .none → exec .platenRequest s = .next s))
  ∧ (∀ s : State,
    let driven : Tsq := { s.tsq with
      stage := some .platenDown, platen := .moving, stageWatch := some s.profile.platenClass }
    (s.tsq.downSw = true → s.beginPlatenDown
      = State.finishDown { s with tsq := { driven with platen := .down, stageWatch := none } })
    ∧ (s.tsq.downSw = false → s.profile.pressureLimit ≤ s.tsq.pressure → s.beginPlatenDown
      = State.finishDown { s with tsq := { driven with platen := .contact, stageWatch := none } })
    ∧ (s.tsq.downSw = false → s.tsq.pressure < s.profile.pressureLimit →
      s.beginPlatenDown = { s with tsq := driven }))
  ∧ (∀ s : State,
    let answered := fun (m : OccMsg) =>
      { s with tsq := workEnded s.tsq, occ := { s.occ with inbox := s.occ.inbox ++ [m] } }
    (s.tsq.work = .platen → s.finishDown = answered (.platen true))
    ∧ (∀ c r, s.tsq.work = .turn c r →
      (s.tsq.turnedBack = true → s.finishDown = answered (.turn .stopped))
      ∧ (s.tsq.turnedBack = false → s.tsq.failure = none → s.finishDown = answered (.turn (.turned r)))
      ∧ (s.tsq.turnedBack = false → s.tsq.failure = some .liftFailed →
        s.finishDown = answered (.turn (.failed .liftFailed r)))
      ∧ (s.tsq.turnedBack = false → s.tsq.failure = some .doubleLift →
        s.finishDown = answered (.turn (.failed .doubleLift r)))))
  ∧ (∀ (rest : List TsqMsg) (s : State), s.tsq.inbox = .stop :: rest →
    let taken : Tsq := { s.tsq with inbox := rest, stopTaken := true }
    let back : Tsq := { taken with turnedBack := true, retryWatch := none }
    (∀ c r g, s.tsq.work = .turn c r → s.tsq.stage = some g →
      (g = .waitDark ∨ g = .platenUp → exec .tsqStop s
        = .next (State.settle (State.beginPlatenDown { s with tsq := back }) s.tsq.ready))
      ∧ (g = .reach ∨ g = .separate → exec .tsqStop s = .next { s with
          tsq := { back with stage := some .goHome, stageWatch := some s.profile.armClass } })
      ∧ (g = .lift ∨ g = .read → exec .tsqStop s = .next { s with
          tsq := { back with
            stage := some .release, vacuum := .off, foot := .lowered, stageWatch := some s.profile.liftClass } })
      ∧ (g = .release → s.tsq.failure = none → exec .tsqStop s = .next { s with tsq := back })
      ∧ (g = .release → s.tsq.failure ≠ none → exec .tsqStop s = .next { s with tsq := taken })
      ∧ (g = .sweep ∨ g = .setDown ∨ g = .goHome ∨ g = .platenDown ∨ g = .retract →
        exec .tsqStop s = .next { s with tsq := taken }))
    ∧ (s.tsq.work = .platen → exec .tsqStop s = .next { s with tsq := taken })
    ∧ (s.tsq.work = .none ∨ (∃ i, s.tsq.work = .park i) →
      exec .tsqStop s = .next { s with tsq := { s.tsq with inbox := rest } }))

/-- The stages of a turn (R81 to R88, R91): each ends at its event and the next begins in it, with its drive,
its vacuum, its foot and its watch; a failed reading is reported to VAU, which records it, and is tried again only with
the window open and attempts left; a leaf lost in SWEEP ends the turn LEAF_DROPPED with its entry, the arm HELD, the
vacuum OFF, NOTE.ARM and the entry UNCERTAIN. An event that the stage does not await, or that finds no stage,
changes nothing. -/
def Obligations.TurnStagesFollowTheirEvents : Prop :=
  (∀ s : State, s.tsq.stage = some .platenUp → exec .upSwitchCloses s = .next (State.settle { s with
    tsq := { s.tsq with
      upSw := true, platen := .up, arm := .moving, stage := some .reach
      stageWatch := some s.profile.armClass } } s.tsq.ready))
  ∧ (∀ (c r : Nat) (s : State), s.tsq.work = .turn c r →
    let failed := fun (reading : LiftReading) (u : State) =>
      u = { s with
        tsq := { s.tsq with
          heavy := if reading = .none then s.tsq.heavy else s.tsq.heavy + 1
          failure := if s.tsq.windowClosed = false ∧ s.tsq.attempts < s.profile.attemptLimit
            then s.tsq.failure
            else some (if reading = .none then TurnFailure.liftFailed else .doubleLift)
          stage := some .release, vacuum := .off, foot := .lowered, stageWatch := some s.profile.liftClass }
        vau := { s.vau with
          mirror := s.vau.mirror.modify r
            (fun x => { x with reading := reading, attempts := min 15 (x.attempts + 1) }) }
        host := u.host }
      ∧ u.host = s.host.issued .vau (ledgerWrites s.exp.base s.vau u.vau false)
    (s.tsq.stage = some .reach → exec .edgeReached s = .next { s with tsq := separating s s.tsq r })
    ∧ (s.tsq.stage = some .separate → exec .burstEnd s = .next { s with
        tsq := { s.tsq with
          stage := some .lift, vacuum := .on, foot := .raised, stageWatch := some s.profile.liftClass } })
    ∧ (s.tsq.stage = some .lift → exec .vacuumSwitchCloses s = .next { s with
        tsq := { s.tsq with stage := some .read, stageWatch := none } })
    ∧ (s.tsq.stage = some .read →
      exec (.readSettled .one) s = .next { s with tsq := { s.tsq with
        stage := some .sweep, retryWatch := none, stageWatch := some s.profile.armClass } }
      ∧ (∃ u, failed .none u ∧ exec (.readSettled .none) s = .next u)
      ∧ (∃ u, failed .two u ∧ exec (.readSettled .two) s = .next u)
      ∧ (∃ u, failed .many u ∧ exec (.readSettled .many) s = .next u)
      ∧ (∃ u, failed .none u ∧ exec .vacuumSwitchOpens s = .next u))
    ∧ (s.tsq.stage = some .release →
      (s.tsq.turnedBack = true ∨ s.tsq.failure ≠ none → exec .vacuumSwitchOpens s = .next { s with
        tsq := { s.tsq with stage := some .goHome, stageWatch := some s.profile.armClass } })
      ∧ (s.tsq.turnedBack = false → s.tsq.failure = none →
        exec .vacuumSwitchOpens s = .next { s with tsq := separating s s.tsq r }))
    ∧ (s.tsq.stage = some .sweep →
      exec .sweepEnd s = .next { s with tsq := { s.tsq with
        stage := some .setDown, vacuum := .off, stageWatch := some s.profile.liftClass } }
      ∧ (∃ u : State, exec .vacuumSwitchOpens s = .next (u.settle s.tsq.ready)
        ∧ u = { s with
          exp := { s.exp with note := s.exp.note ||| 0x40 }
          tsq := workEnded { s.tsq with arm := .held, vacuum := .off }
          occ := { s.occ with inbox := s.occ.inbox ++ [.turn (.failed .leafDropped r)] }
          vau := { s.vau with mirror := s.vau.mirror.modify r (fun x => { x with uncertain := true }) }
          host := u.host }
        ∧ u.host = s.host.issued .vau (ledgerWrites s.exp.base s.vau u.vau false)))
    ∧ (s.tsq.stage = some .setDown → exec .vacuumSwitchOpens s = .next { s with
        tsq := { s.tsq with stage := some .goHome, stageWatch := some s.profile.armClass } }))
  ∧ (∀ s : State,
    (s.tsq.stage ≠ some .reach → exec .edgeReached s = .next s)
    ∧ (s.tsq.stage ≠ some .separate → exec .burstEnd s = .next s)
    ∧ (s.tsq.stage ≠ some .lift → exec .vacuumSwitchCloses s = .next s)
    ∧ (s.tsq.stage ≠ some .read → ∀ x, exec (.readSettled x) s = .next s)
    ∧ (s.tsq.stage ≠ some .sweep → exec .sweepEnd s = .next s)
    ∧ (s.tsq.stage ≠ some .read → s.tsq.stage ≠ some .release → s.tsq.stage ≠ some .sweep →
      s.tsq.stage ≠ some .setDown → exec .vacuumSwitchOpens s = .next s))
  ∧ (∀ (k : Nat) (s : State), s.tsq.retryWatch = some k →
    (k ≠ 0 → exec .retryWindowExpiry s
      = .next { s with tsq := { s.tsq with retryWatch := none, windowClosed := true } })
    ∧ (k = 0 → exec .retryWindowExpiry s = .next s))

/-- The position switches and the pressure sensor (R79, R87 to R89, R94, R96): at rest a switch moves only an arm
or a platen in the state of its line of R79; during work, and while the arm is DEAD, it changes no state but
where a stage awaits it: PLATEN_DOWN ends DOWN or in CONTACT, RETURN goes on to PLATEN_DOWN, a retract ends
PARKED and answers STALL, and a PARK is answered DONE. That a DEAD arm also stops the changes of the platen's
states is the model's reading (log 15), and that a pressure reading outside PLATEN_DOWN is kept is its choice (log
42). -/
def Obligations.SwitchesMoveTheStates : Prop :=
  (∀ s : State, s.tsq.work = .none → s.tsq.stage = none → s.tsq.arm ≠ .dead →
    exec .parkSwitchCloses s = .next (State.settle { s with tsq := { s.tsq with
      parkSw := true
      arm := if s.tsq.arm = .held ∨ s.tsq.arm = .unknown then .parked else s.tsq.arm } } s.tsq.ready)
    ∧ exec .parkSwitchOpens s = .next (State.settle { s with tsq := { s.tsq with
      parkSw := false, arm := if s.tsq.arm = .parked then .unknown else s.tsq.arm } } s.tsq.ready)
    ∧ exec .upSwitchCloses s = .next (State.settle { s with tsq := { s.tsq with
      upSw := true, platen := if s.tsq.platen = .unknown then .up else s.tsq.platen } } s.tsq.ready)
    ∧ exec .downSwitchCloses s = .next (State.settle { s with tsq := { s.tsq with
      downSw := true, platen := if s.tsq.platen = .unknown then .down else s.tsq.platen } } s.tsq.ready)
    ∧ exec .upSwitchOpens s = .next (State.settle { s with tsq := { s.tsq with
      upSw := false, platen := if s.tsq.platen = .up then .unknown else s.tsq.platen } } s.tsq.ready)
    ∧ exec .downSwitchOpens s = .next (State.settle { s with tsq := { s.tsq with
      downSw := false, platen := if s.tsq.platen = .down then .unknown else s.tsq.platen } } s.tsq.ready))
  ∧ (∀ s : State, (s.tsq.work ≠ .none ∨ s.tsq.arm = .dead) →
    exec .parkSwitchOpens s = .next { s with tsq := { s.tsq with parkSw := false } }
    ∧ exec .upSwitchOpens s = .next { s with tsq := { s.tsq with upSw := false } }
    ∧ exec .downSwitchOpens s = .next { s with tsq := { s.tsq with downSw := false } }
    ∧ (s.tsq.stage ≠ some .platenUp →
      exec .upSwitchCloses s = .next { s with tsq := { s.tsq with upSw := true } })
    ∧ (s.tsq.stage ≠ some .platenDown →
      exec .downSwitchCloses s = .next { s with tsq := { s.tsq with downSw := true } })
    ∧ (s.tsq.stage ≠ some .goHome → s.tsq.stage ≠ some .retract → (∀ i, s.tsq.work ≠ .park i) →
      exec .parkSwitchCloses s = .next { s with tsq := { s.tsq with parkSw := true } }))
  ∧ (∀ s : State, s.tsq.stage = some .platenDown →
    exec .downSwitchCloses s = .next (State.settle (State.finishDown { s with tsq := { s.tsq with
      downSw := true, platen := .down, stageWatch := none } }) s.tsq.ready))
  ∧ (∀ (n : Fin 1024) (s : State),
    (s.tsq.stage = some .platenDown → s.profile.pressureLimit ≤ n.val → exec (.pressureReading n) s
      = .next (State.settle (State.finishDown { s with tsq := { s.tsq with
          pressure := n.val, platen := .contact, stageWatch := none } }) s.tsq.ready))
    ∧ (s.tsq.stage ≠ some .platenDown ∨ n.val < s.profile.pressureLimit →
      exec (.pressureReading n) s = .next { s with tsq := { s.tsq with pressure := n.val } }))
  ∧ (∀ (c r : Nat) (s : State), s.tsq.work = .turn c r →
    (s.tsq.stage = some .goHome → exec .parkSwitchCloses s = .next (State.settle
      (State.beginPlatenDown { s with tsq := { s.tsq with
        parkSw := true, arm := .parked, stageWatch := none } }) s.tsq.ready))
    ∧ (s.tsq.stage = some .retract → exec .parkSwitchCloses s = .next (State.settle { s with
        tsq := workEnded { s.tsq with parkSw := true, arm := .parked }
        occ := { s.occ with inbox := s.occ.inbox ++ [.turn (.failed .stall r)] } } s.tsq.ready)))
  ∧ (∀ (i : Fin 16) (s : State), s.tsq.work = .park i → exec .parkSwitchCloses s
    = .next (State.settle (State.answer
        { s with tsq := workEnded { s.tsq with parkSw := true, arm := .parked } } i .done) s.tsq.ready))

/-- STAGE_WATCH_EXPIRY and CUT_DELAY_EXPIRY (R92 to R94): a platen that does not arrive is UNKNOWN; an arm that does
not is HELD, DEAD or retracted by the stall action, with NOTE.ARM when it stops HELD or DEAD; a retract ends
HELD, or DEAD under RETRACT_CUT; and STALL carries the entry of the turn. PARK and ARM_RESTORE (R33, R52, R96, R97) with their refusals in their order; a
PARK whose watch expires ends STALL with the arm HELD. The release flag sets the vacuum OFF and lowers the foot. -/
def Obligations.StallsAndParksEndTheMotion : Prop :=
  (∀ (k : Nat) (s : State), s.tsq.stageWatch = some k → k ≠ 0 →
    let note (n : BitVec 7) : Exp := { s.exp with note := s.exp.note ||| n }
    let answered (m : OccMsg) : Occ := { s.occ with inbox := s.occ.inbox ++ [m] }
    (∀ i, s.tsq.work = .park i → exec .stageWatchExpiry s = .next (State.settle (State.answer
      { s with exp := note 0x40, tsq := workEnded { s.tsq with arm := .held } } i .stall) s.tsq.ready))
    ∧ (s.tsq.work = .platen → s.tsq.stage = some .platenDown → exec .stageWatchExpiry s
      = .next (State.settle { s with
          tsq := workEnded { s.tsq with platen := .unknown }, occ := answered (.platen false) } s.tsq.ready))
    ∧ (∀ c r g, s.tsq.work = .turn c r → s.tsq.stage = some g →
      let held : State := { s with
        exp := note 0x40, tsq := workEnded { s.tsq with arm := .held }
        occ := answered (.turn (.failed .stall r)) }
      let dead : State := { s with
        exp := note 0x40, tsq := workEnded { s.tsq with arm := .dead, relayOpen := true }
        occ := answered (.turn (.failed .stall r)) }
      (g = .platenUp ∨ g = .platenDown → exec .stageWatchExpiry s = .next (State.settle { s with
          tsq := workEnded { s.tsq with platen := .unknown }
          occ := answered (.turn (.failed .stall r)) } s.tsq.ready))
      ∧ (g = .retract → exec .stageWatchExpiry s
        = .next (State.settle (if s.tsq.cutWatch = none then held else dead) s.tsq.ready))
      ∧ (g ≠ .platenUp → g ≠ .platenDown → g ≠ .retract →
        (s.profile.stallAction = .hold → exec .stageWatchExpiry s = .next (held.settle s.tsq.ready))
        ∧ (s.profile.stallAction = .cut → exec .stageWatchExpiry s = .next (dead.settle s.tsq.ready))
        ∧ (s.profile.stallAction = .retract → exec .stageWatchExpiry s = .next { s with tsq := { s.tsq with
            stage := some .retract, stageWatch := some s.profile.armClass, cutWatch := none } })
        ∧ (s.profile.stallAction = .retractCut → exec .stageWatchExpiry s = .next { s with tsq := { s.tsq with
            stage := some .retract, stageWatch := some s.profile.armClass
            cutWatch := some (2 ^ s.profile.cutCode * 16) } }))))
  ∧ (∀ s : State, (s.tsq.stageWatch = none ∨ s.tsq.stageWatch = some 0) → exec .stageWatchExpiry s = .next s)
  ∧ (∀ s : State,
    (s.tsq.cutWatch ≠ none → exec .cutDelayExpiry s = .next (State.settle { s with
      exp := { s.exp with note := s.exp.note ||| 0x40 }
      tsq := workEnded { s.tsq with arm := .dead, relayOpen := true }
      occ := { s.occ with inbox := s.occ.inbox ++ [.turn (.failed .stall s.tsq.lifted)] } } s.tsq.ready))
    ∧ (∀ c r, s.tsq.work = .turn c r → s.tsq.lifted = r)
    ∧ (s.tsq.cutWatch = none → exec .cutDelayExpiry s = .next s))
  ∧ (∀ (s s' : State) (i : Fin 16) (release : Bool), s.nextOrder .tsq = some (⟨i, .park release⟩, s') →
    (s.vau.vol = .opening ∨ s.vau.vol = .closing → exec .park s = .next (s'.answer i .busy))
    ∧ (s.vau.vol ≠ .opening → s.vau.vol ≠ .closing →
      let vacuum := if release = true then Vacuum.off else s.tsq.vacuum
      let foot := if release = true then Foot.lowered else s.tsq.foot
      (s.tsq.arm = .dead → exec .park s = .next (s'.answer i .armDead))
      ∧ (s.tsq.arm ≠ .dead → s.tsq.work ≠ .none → exec .park s = .next (s'.answer i .busy))
      ∧ (s.tsq.arm = .parked → s.tsq.work = .none → exec .park s
        = .next (State.answer { s' with tsq := { s.tsq with vacuum := vacuum, foot := foot } } i .done))
      ∧ (s.tsq.arm ≠ .dead → s.tsq.arm ≠ .parked → s.tsq.work = .none → exec .park s
        = .next { s' with tsq := { s.tsq with
            vacuum := vacuum, foot := foot, work := .park i, arm := .moving
            stageWatch := some (if s.vau.vol = .noVolume then 12 else s.profile.armClass) } })))
  ∧ (∀ (s s' : State) (i : Fin 16), s.nextOrder .tsq = some (⟨i, .armRestore⟩, s') →
    (s.vau.vol = .opening ∨ s.vau.vol = .closing → exec .armRestore s = .next (s'.answer i .busy))
    ∧ (s.vau.vol ≠ .opening → s.vau.vol ≠ .closing →
      (s.tsq.arm = .dead → exec .armRestore s = .next (State.answer
        { s' with tsq := { s.tsq with arm := .unknown, relayOpen := false } } i .done))
      ∧ (s.tsq.arm ≠ .dead → exec .armRestore s = .next (s'.answer i .notDead))))

/-- The law of the interlock (R80, R81, R116), over every step: the sequencer's and the light unit's items stay
coherent, ready to light is false while a stage or a PARK is in motion, and a bank is lit in no stage but
PLATEN_DOWN; so a SWEEP never runs with a bank lit. And a bank becomes lit only at a fire request, from
ADMITTED, with the arm PARKED and the platen DOWN or CONTACT. -/
def Obligations.InterlockLawKept : Prop :=
  (∀ s t : State, s.InterlockLaw → step s = .next t → t.InterlockLaw)
  ∧ (∀ s : State, s.InterlockLaw → s.tsq.stage = some .sweep → s.ldu.bankLit = false)
  ∧ (∀ s t : State, step s = .next t → s.ldu.bankLit = false → t.ldu.bankLit = true →
    s.pending.head? = some .fireRequest ∧ s.ldu.state = .admitted ∧ s.tsq.arm = .parked
    ∧ (s.tsq.platen = .down ∨ s.tsq.platen = .contact))

/-! ### Light and dose (chapter 6) -/

/-- The dose arithmetic (R103 to R108, R113) and what it guarantees: the illuminances, with each spill term
rounded up for itself; the allowances of the pages and of the volume; the admissible time, which is the smallest
of the time asked for and the three bounds; and, at it or any shorter one, a charge of each page within its allowance and of both within the volume's, so that no admitted
exposure raises a side above its cap or the volume above its budget. -/
def Obligations.DoseBoundsKeepEveryAllowance : Prop :=
  (∀ (s : State) (sides : ChanSet) (cls : ExpClass),
    let d := s.doseCase sides cls
    let level := fun (b : Fin 4) => (s.profile.kind
      (if b.val < 2 then (planAt s.vau.plan s.vau.cursor).kind
        else (planAt s.vau.plan s.vau.rightEntry).kind)).levels.getD b.val 0
    let lit := fun (b : Fin 4) => (if b.val < 2 then sides.left else sides.right)
      && !s.ldu.retired.getLsbD b.val
    let lux := fun (b : Fin 4) =>
      if lit b then (s.pfs.cradle.calibration.getD b.val 0 * level b + 254) / 255 else 0
    let spill := fun (b : Fin 4) => (lux b * s.pfs.cradle.spill + 255) / 256
    d.luxLeft = lux 0 + lux 1 + (spill 2 + spill 3)
    ∧ d.luxRight = lux 2 + lux 3 + (spill 0 + spill 1)
    ∧ d.requested = (match sides.left, sides.right with
        | true, true => min (s.profile.kind (planAt s.vau.plan s.vau.cursor).kind).strobe
            (s.profile.kind (planAt s.vau.plan s.vau.rightEntry).kind).strobe
        | true, false => (s.profile.kind (planAt s.vau.plan s.vau.cursor).kind).strobe
        | false, _ => (s.profile.kind (planAt s.vau.plan s.vau.rightEntry).kind).strobe)
    ∧ (let allowance := fun (c : Chan) =>
        (s.profile.kind (planAt s.vau.plan (s.vau.pageEntry c)).kind).cap
          - s.ldu.dose (s.vau.pageEntry c) (pageSide c)
      let budget := s.profile.budget * 1024
      let most := match cls with
        | .normal => budget - budget * s.profile.reserve / 64
        | .retake => budget
      let others := if d.luxLeft ≠ 0 ∧ d.luxRight ≠ 0 then 1 else 0
      let bound := fun (n lux : Nat) => if lux = 0 then none else some (1000 * n / lux)
      d.bounds = ⟨bound (allowance .left) d.luxLeft, bound (allowance .right) d.luxRight,
        bound (most - s.ldu.volDose - others) (d.luxLeft + d.luxRight)⟩)
    ∧ (∀ b, d.bounds.left = some b ∨ d.bounds.right = some b ∨ d.bounds.volume = some b → d.time ≤ b)
    ∧ d.time ≤ d.requested
    ∧ (d.time = d.requested ∨ d.bounds.left = some d.time ∨ d.bounds.right = some d.time
      ∨ d.bounds.volume = some d.time))
  ∧ (∀ (s : State) (sides : ChanSet) (cls : ExpClass) (time : Nat),
    let d := s.doseCase sides cls
    let cap := fun (c : Chan) => (s.profile.kind (planAt s.vau.plan (s.vau.pageEntry c)).kind).cap
    let dose := fun (c : Chan) => s.ldu.dose (s.vau.pageEntry c) (pageSide c)
    let budget := s.profile.budget * 1024
    let most := match cls with
      | .normal => budget - budget * s.profile.reserve / 64
      | .retake => budget
    time ≤ d.time →
    (dose .left + pageCharge d.luxLeft time ≤ max (cap .left) (dose .left))
    ∧ (dose .right + pageCharge d.luxRight time ≤ max (cap .right) (dose .right))
    ∧ (s.ldu.volDose + (pageCharge d.luxLeft time + pageCharge d.luxRight time) ≤ max most s.ldu.volDose))

/-- ADMISSION_REQUEST (R102, R110 to R114): BUSY outside IDLE; at the time asked for, or at one from t_min up, the
charge is made in the same event, the exposure is CHARGING, and the two side doses and then the volume dose
are written; otherwise nothing is charged, and the answer is SPLIT for two sides, WITHHELD or DOSE_LIMIT for
one, with the side and the bound that fell short. -/
def Obligations.AdmissionChargesOrRefuses : Prop :=
  (∀ (sides : ChanSet) (cls : ExpClass) (rest : List LduMsg) (s : State),
    s.ldu.inbox = .request sides cls :: rest →
    let d := s.doseCase sides cls
    let fits := d.time = d.requested ∨ s.profile.tMin ≤ d.time
    let answered := fun (a : AdmissionReply) => { s with
      ldu := { s.ldu with inbox := rest }, occ := { s.occ with inbox := s.occ.inbox ++ [.admission a] } }
    let l := s.vau.cursor
    let r := s.vau.rightEntry
    let chargeLeft := (d.luxLeft * d.time + 999) / 1000
    let chargeRight := (d.luxRight * d.time + 999) / 1000
    (s.ldu.state ≠ .idle → exec .admissionRequest s = .next (answered .busy))
    ∧ (s.ldu.state = .idle → fits → ∃ t, exec .admissionRequest s = .next t
      ∧ t = { s with ldu := t.ldu, host := t.host } ∧ t.host.mem = s.host.mem
      ∧ t.ldu = { s.ldu with
          inbox := rest, state := .charging, abandoned := false
          volDose := s.ldu.volDose + (chargeLeft + chargeRight), sideDose := t.ldu.sideDose
          record := some ⟨sides, cls,
            (if sides.left then 0b0011 else 0) ||| (if sides.right then 0b1100 else 0),
            l, r, d.time, decide (d.time < d.requested), chargeLeft, chargeRight, 0, false, false⟩ }
      ∧ (∀ e side, e < s.ldu.sideDose.length → t.ldu.dose e side = s.ldu.dose e side
          + (if e = l ∧ side = .verso then chargeLeft else if e = r ∧ side = .recto then chargeRight else 0))
      ∧ t.host.inFlight = s.host.inFlight
          ++ [⟨.ldu, s.host.serial, s.area + 0x8100 + 192 * l + 20, leBytes (t.ldu.dose l .verso) 4⟩,
              ⟨.ldu, s.host.serial + 1, s.area + 0x8100 + 192 * r + 92, leBytes (t.ldu.dose r .recto) 4⟩,
              ⟨.ldu, s.host.serial + 2, s.area + 0x8010, leBytes t.ldu.volDose 8⟩])
    ∧ (s.ldu.state = .idle → ¬fits → sides = ⟨true, true⟩ →
      exec .admissionRequest s = .next (answered .split))
    ∧ (s.ldu.state = .idle → ¬fits → ∀ c, sides = ⟨c == .left, c == .right⟩ →
      (s.profile.doseMode = .withhold →
        exec .admissionRequest s = .next (answered (.withheld c d.bounds.shortest)))
      ∧ (s.profile.doseMode = .halt →
        exec .admissionRequest s = .next (answered (.doseLimit c d.bounds.shortest)))))
  ∧ (∀ b : Bounds,
    (b.shortest = .sideLeft ↔ ∃ x, b.left = some x
      ∧ (∀ y, b.right = some y → x ≤ y) ∧ (∀ z, b.volume = some z → x ≤ z))
    ∧ (b.shortest = .sideRight ↔ b.shortest ≠ .sideLeft
      ∧ ∃ y, b.right = some y ∧ ∀ z, b.volume = some z → y ≤ z))

/-- The exposure ended: IDLE, the record empty, every bank dark (R98, R102). -/
def exposureEnded (l : Ldu) : Ldu :=
  { l with state := .idle, record := none, bankLit := false, abandoned := false, fall := false }

/-- CHARGE_WRITES_COMPLETE (R114, R115): the dose writes complete, so that host memory holds the charge, and the
admission is answered ADMITTED with the
time, or ABANDONED. ABANDON_REQUEST and CANCEL_REQUEST (R102, R115, R118): in CHARGING an abandon lets the
writes run on; in ADMITTED the exposure ends with DONE, and the channels a cancel names are told CUT; in
another state they are answered DONE and change nothing. No accumulator changes: the charge stands. -/
def Obligations.ChargesStandWhenAbandoned : Prop :=
  (∀ (s : State) (chans : ChanSet) (f : Chan → Notice), ∃ p, s.notifyAll chans f = { s with cch := p }
    ∧ ∀ c, p.get c = if chans.has c = true
        then { s.cch.get c with notices := (s.cch.get c).notices ++ [f c] } else s.cch.get c)
  ∧ (∀ (s : State) (r : ExposureRec), s.ldu.state = .charging → s.ldu.record = some r →
    ∃ t, exec .chargeWritesComplete s = .next t
      ∧ t = { s with ldu := t.ldu, occ := t.occ, host := t.host }
      ∧ s.host.Completed (fun w => w.writer == .ldu) t.host
      ∧ (s.ldu.abandoned = false → t.ldu = { s.ldu with state := .admitted }
          ∧ t.occ = { s.occ with inbox := s.occ.inbox ++ [.admission (.admitted r.time r.degraded)] })
      ∧ (s.ldu.abandoned = true → t.ldu = exposureEnded s.ldu
          ∧ t.occ = { s.occ with inbox := s.occ.inbox ++ [.admission .abandoned] }))
  ∧ (∀ (rest : List LduMsg) (s : State), s.ldu.inbox = .abandon :: rest →
    let done : Occ := { s.occ with inbox := s.occ.inbox ++ [.done] }
    (s.ldu.state = .charging →
      exec .abandonRequest s = .next { s with ldu := { s.ldu with inbox := rest, abandoned := true } })
    ∧ (s.ldu.state = .admitted → exec .abandonRequest s
      = .next { s with ldu := exposureEnded { s.ldu with inbox := rest }, occ := done })
    ∧ (s.ldu.state = .idle ∨ s.ldu.state = .lit →
      exec .abandonRequest s = .next { s with ldu := { s.ldu with inbox := rest }, occ := done }))
  ∧ (∀ (chans : ChanSet) (rest : List LduMsg) (s : State), s.ldu.inbox = .cancel chans :: rest →
    let done : Occ := { s.occ with inbox := s.occ.inbox ++ [.done] }
    (∀ r : ExposureRec, s.ldu.state = .admitted → s.ldu.record = some r → exec .cancelRequest s
      = .next { s.notifyAll chans (fun c => ⟨.cut, r.time, r.degraded, false,
            if c = .left then r.chargeLeft else r.chargeRight⟩) with
          ldu := exposureEnded { s.ldu with inbox := rest }, occ := done })
    ∧ (s.ldu.state ≠ .admitted →
      exec .cancelRequest s = .next { s with ldu := { s.ldu with inbox := rest }, occ := done }))

/-- FIRE_REQUEST (R100, R102, R116, R117): under the interlock the strobe begins, driving the banks that are in the
mask, READY and with light, with the contact mark of a platen in CONTACT; otherwise the channels are told CUT
and the answer is NOT_READY. STROBE_END, ABORT_REQUEST and INTERLOCK_FALL (R117, R119, R120) end it: bank lit falls,
each channel of the exposure gets one notice, and a turn that waits for the dark begins PLATEN_UP in the same
event (R81). OPEN_STRING_SENSE retires a driven bank, marks the fault and reports LAMP_FAULT; a bank that is
not driven is unchanged (R121). A driven bank is lit at its level for the kind of the page it faces, and every
other bank is dark (R100, R103, R117). -/
def Obligations.StrobesFireUnderTheInterlock : Prop :=
  (∀ (rest : List LduMsg) (s : State), s.ldu.inbox = .fire :: rest →
    (∀ r : ExposureRec, s.ldu.state = .admitted → s.ldu.record = some r →
      let ready := s.tsq.arm = .parked ∧ (s.tsq.platen = .down ∨ s.tsq.platen = .contact)
      (ready → ∃ driven : BitVec 4, exec .fireRequest s = .next { s with ldu := { s.ldu with
            inbox := rest, state := .lit, bankLit := true, fall := false
            record := some { r with
              driven := driven, fault := false, contact := s.tsq.platen == .contact } } }
        ∧ ∀ b : Fin 4, driven.getLsbD b.val = true ↔ r.mask.getLsbD b.val = true
            ∧ s.ldu.retired.getLsbD b.val = false ∧ bankLux s s.pageKinds b ≠ 0)
      ∧ (¬ready → exec .fireRequest s
        = .next { s.notifyAll r.sides (fun c => ⟨.cut, r.time, r.degraded, false,
              if c = .left then r.chargeLeft else r.chargeRight⟩) with
            ldu := exposureEnded { s.ldu with inbox := rest }
            occ := { s.occ with inbox := s.occ.inbox ++ [.fire .notReady] } }))
    ∧ (s.ldu.state ≠ .admitted → exec .fireRequest s = .next { s with
        ldu := { s.ldu with inbox := rest }, occ := { s.occ with inbox := s.occ.inbox ++ [.fire .notAdmitted] } }))
  ∧ (∀ (r : ExposureRec) (s : State), s.ldu.state = .lit → s.ldu.record = some r →
    let ends := fun (kind : NoticeKind) (a : FireReply) (rest : List LduMsg) =>
      State.lampsOff { s.notifyAll r.sides (fun c => ⟨kind, r.time, r.degraded, r.contact,
          if c = .left then r.chargeLeft else r.chargeRight⟩) with
        ldu := { s.ldu with inbox := rest }, occ := { s.occ with inbox := s.occ.inbox ++ [.fire a] } }
    exec .strobeEnd s = .next (ends (if r.fault then .lightFault else .exposed) .strobeEnd s.ldu.inbox)
    ∧ (∀ rest, s.ldu.inbox = .abort :: rest → exec .abortRequest s = .next (ends .cut .aborted rest))
    ∧ (s.ldu.fall = true → exec .interlockFall s = .next (ends .cut .notReady s.ldu.inbox))
    ∧ (s.ldu.fall = false → exec .interlockFall s = .next s)
    ∧ (∀ b : Fin 4, r.driven.getLsbD b.val = true → ∃ t, exec (.openStringSense b) s = .next t
      ∧ t = { s with
          occ := { s.occ with inbox := s.occ.inbox ++ [.lampFault] }
          ldu := { s.ldu with
            retired := t.ldu.retired
            record := some { r with driven := r.driven &&& ~~~(1#4 <<< b.val), fault := true } } }
      ∧ ∀ i : Fin 4, t.ldu.retired.getLsbD i.val = (s.ldu.retired.getLsbD i.val || i == b))
    ∧ (∀ b : Fin 4, r.driven.getLsbD b.val = false → exec (.openStringSense b) s = .next s))
  ∧ (∀ s : State, s.ldu.state ≠ .lit →
    exec .strobeEnd s = .next s ∧ exec .interlockFall s = .next s
    ∧ (∀ b, exec (.openStringSense b) s = .next s)
    ∧ (∀ rest, s.ldu.inbox = .abort :: rest → exec .abortRequest s = .next { s with
        ldu := { s.ldu with inbox := rest }, occ := { s.occ with inbox := s.occ.inbox ++ [.done] } }))
  ∧ (∀ (s : State) (b : Fin 4),
    (s.ldu.record = none ∨ s.ldu.bankLit = false → s.bankDrive b = 0)
    ∧ (∀ r : ExposureRec, s.ldu.record = some r → s.ldu.bankLit = true →
      s.bankDrive b = if r.driven.getLsbD b.val = true
        then (s.profile.kind
          (planAt s.vau.plan (if b.val < 2 then r.leftPage else r.rightPage)).kind).levels.getD b.val 0
        else 0))
  ∧ (∀ s : State,
    (s.tsq.stage ≠ some .waitDark → s.lampsOff = { s with ldu := exposureEnded s.ldu })
    ∧ (s.tsq.stage = some .waitDark →
      (s.tsq.platen = .up → s.tsq.upSw = true → s.lampsOff = { s with
        ldu := exposureEnded s.ldu
        tsq := { s.tsq with arm := .moving, stage := some .reach, stageWatch := some s.profile.armClass } })
      ∧ (s.tsq.platen ≠ .up ∨ s.tsq.upSw = false → s.lampsOff = { s with
        ldu := exposureEnded s.ldu
        tsq := { s.tsq with
          stage := some .platenUp, platen := .moving, stageWatch := some s.profile.platenClass } })))

/-- The law of the device for the charge (R99, R114), over every step: the volume dose is never less than the sum
of the side doses, and while a volume stays open no accumulator is reduced. -/
def Obligations.DosesOnlyGrowWhileOpen : Prop :=
  (∀ s t : State, s.ldu.DoseLaw → step s = .next t → t.ldu.DoseLaw)
  ∧ (∀ s t : State, s.VolumeCoherent → step s = .next t →
    s.vau.vol ≠ .noVolume → s.vau.vol ≠ .opening → t.vau.vol ≠ .noVolume →
    s.ldu.volDose ≤ t.ldu.volDose ∧ ∀ e side, s.ldu.dose e side ≤ t.ldu.dose e side)

/-! ### The camera channels (chapter 7) -/

/-- ARM_REQUEST (R122, R125, R126): in IDLE the take id goes up by 1, wrapping, the take record is filled, ARM
is sent with the sync flag, and the request is answered armed; in any other state it is answered BUSY and
nothing else changes. END_OF_EXPOSURE_NOTICE (R127, R128): kept in ARMED, with the frame watch started;
ignored in any other state. A FAULTED channel that an order needs restarts (R125, R138). -/
def Obligations.ArmsAndNoticesAreTaken : Prop :=
  (∀ (c : Chan) (q : ArmReq) (rest : List ArmReq) (s : State), (s.cch.get c).arms = q :: rest →
    let x := s.cch.get c
    (x.state = .idle → exec (.armRequest c) s = .next { s with
      cch := s.cch.set c { x with
        arms := rest, state := .armed, takeId := x.takeId + 1, syncPending := false
        take := some (TakeRec.mk q.desc q.leaf q.side q.panel (planAt s.vau.plan q.leaf).tag s.vau.key none none)
        sent := x.sent ++ [.arm (x.takeId + 1) q.time q.leaf q.side q.panel x.syncPending] }
      occ := { s.occ with inbox := s.occ.inbox ++ [.armed c true] } })
    ∧ (x.state ≠ .idle → exec (.armRequest c) s = .next { s with
      cch := s.cch.set c { x with arms := rest }
      occ := { s.occ with inbox := s.occ.inbox ++ [.armed c false] } }))
  ∧ (∀ (c : Chan) (n : Notice) (rest : List Notice) (s : State), (s.cch.get c).notices = n :: rest →
    let x := s.cch.get c
    (∀ t : TakeRec, x.state = .armed → x.take = some t → exec (.endOfExposureNotice c) s = .next { s with
      cch := s.cch.set c { x with
        notices := rest, state := .exposed, take := some { t with notice := some n }
        frameWatch := some s.profile.frameClass } })
    ∧ (x.state ≠ .armed → exec (.endOfExposureNotice c) s
      = .next { s with cch := s.cch.set c { x with notices := rest } }))
  ∧ (∀ x : Cch,
    (x.state = .faulted → x.clearFaulted
      = { x with state := .idle, takeId := 0, lastDone := none, syncPending := true, lost := 0 })
    ∧ (x.state ≠ .faulted → x.clearFaulted = x))

/-- FRAME_HEADER, BODY_BYTE, FRAME_TRAILER, START_MARK and STRAY_BYTES (R123, R129, R130, R132): a header in
BETWEEN is taken, with its body length into the take record, or answered REPEAT_SEEN or spurned, by the first
line of R129 that applies, and elsewhere its start mark ends the frame in progress first; a body byte goes into
the CRC by the byte step of R54 (stated with the closing sum) and, below the capacity, into
host memory; a discarded frame is counted off and answered at its trailer or a start mark, and changes no
channel state, take record, count or watch. That a trailer before the full body and a body byte after it
change nothing (log 1), that FRAME_HEADER includes its start mark (log 23), and that a header which is not taken
leaves the intake counts and the CRC of the last taken frame (log 35), are the model's choices. -/
def Obligations.FramesAreTakenOrDiscarded : Prop :=
  (∀ (c : Chan) (id : BitVec 16) (len : Word32) (s : State),
    let x := s.cch.get c
    (x.intake = .between →
      (x.state = .exposed → id = x.takeId → exec (.frameHeader c id len) s = .next { s with
        cch := s.cch.set c { x with
          state := .receiving, intake := .taking
          take := x.take.map (fun t => { t with bodyLen := some len.toNat })
          received := 0, written := 0, crc := 0xFFFFFFFF } })
      ∧ (x.state ≠ .exposed ∨ id ≠ x.takeId →
        (x.lastDone = some id → exec (.frameHeader c id len) s = .next { s with
          cch := s.cch.set c { x with intake := .discarding .repeatSeen id len.toNat 0 } })
        ∧ (x.lastDone ≠ some id → exec (.frameHeader c id len) s = .next { s with
          cch := s.cch.set c { x with intake := .discarding .spurned id len.toNat 0 } })))
    ∧ ∀ u, exec (.startMark c) s = .next u → (u.cch.get c).intake = .between
        ∧ exec (.frameHeader c id len) s = exec (.frameHeader c id len) u)
  ∧ (∀ (c : Chan) (b : Byte) (s : State),
    let x := s.cch.get c
    (∀ t : TakeRec, x.intake = .taking → x.take = some t → x.received < x.bodyLength →
      (x.received < t.desc.cap → exec (.bodyByte c b) s = .next { s with
        cch := s.cch.set c { x with
          crc := crcByte x.crc b, received := x.received + 1, written := x.written + 1 }
        host := { s.host with
          inFlight := s.host.inFlight
            ++ [HostWrite.mk (.body c) s.host.serial (t.desc.addr + x.received) [b]]
          serial := s.host.serial + 1 } })
      ∧ (t.desc.cap ≤ x.received → exec (.bodyByte c b) s = .next { s with
        cch := s.cch.set c { x with crc := crcByte x.crc b, received := x.received + 1 } }))
    ∧ (∀ kind id len n, x.intake = .discarding kind id len n → n < len →
      exec (.bodyByte c b) s
        = .next { s with cch := s.cch.set c { x with intake := .discarding kind id len (n + 1) } })
    ∧ (x.intake = .between → exec (.bodyByte c b) s = .next s)
    ∧ (x.intake = .taking → x.bodyLength ≤ x.received → exec (.bodyByte c b) s = .next s)
    ∧ (∀ kind id len n, x.intake = .discarding kind id len n → len ≤ n →
      exec (.bodyByte c b) s = .next s))
  ∧ (∀ (c : Chan) (k : Word32) (s : State),
    let x := s.cch.get c
    (∀ kind id len n, x.intake = .discarding kind id len n →
      let answered : State := { s with
        cch := s.cch.set c { x with intake := .between, sent := x.sent ++ [.answer kind id] } }
      exec (.startMark c) s = .next answered
      ∧ (n = len → exec (.frameTrailer c k) s = .next answered)
      ∧ (n ≠ len → exec (.frameTrailer c k) s = .next s))
    ∧ (x.intake = .taking → x.received ≠ x.bodyLength → exec (.frameTrailer c k) s = .next s)
    ∧ (x.intake = .between → exec (.startMark c) s = .next s ∧ exec (.frameTrailer c k) s = .next s))
  ∧ (∀ (c : Chan) (b : List Byte) (s : State), exec (.strayBytes c b) s = .next s)
  ∧ (∀ (x : Cch) (t : TakeRec) (n : Nat), x.take = some t → t.bodyLen = some n → x.bodyLength = n)

/-- The score of a slot: its first two payload bytes, least significant first, a missing one 0 (R157). -/
def slotScore (b : SbSlot) : Nat :=
  (if 0 < b.length then (b.payload.getD 0 0).toNat else 0)
    + 256 * (if 1 < b.length then (b.payload.getD 1 0).toNat else 0)

/-- The focus gate test of a channel: the gate is NONE, or its slot is valid, fresh, free of check error, and
scores at least the minimum (R157). -/
def gatePassed (s : State) (c : Chan) : Prop :=
  ∀ i : Fin 4, s.profile.gate = i.val + 1 →
    let b := (s.cch.get c).slot i
    b.valid = true ∧ b.age < 3 ∧ b.checkError = false ∧ s.profile.minFocus ≤ slotScore b

/-- The four slots aged by a judgement, and nothing else of the channel changed (R156). -/
def agedSlots (x y : Cch) : Prop :=
  y = { x with slots := y.slots }
  ∧ ∀ k, y.slot k = { x.slot k with
      age := if (x.slot k).received then (x.slot k).age else min 3 ((x.slot k).age + 1), received := false }

/-- The descriptor result of a judged take, before VAU gives a number (Table 7-3, R158). -/
def resultFor (s : State) (c : Chan) (t : TakeRec) (n : Notice) (o : Outcome) (filled check : Nat)
    (r : Result) : Prop :=
  r = { outcome := o, degraded := n.degraded, contact := n.contact, side := t.side, panel := t.panel
        filled := filled, key := t.key, leaf := t.leaf, takeId := (s.cch.get c).takeId, tag := t.tag
        time := n.time, dose := n.dose, focus := r.focus, check := check, number := 0 }
  ∧ (s.profile.gate = 0 → r.focus = 0)
  ∧ ∀ i : Fin 4, s.profile.gate = i.val + 1 → r.focus
      = if ((s.cch.get c).slot i).valid then slotScore ((s.cch.get c).slot i) else 0

/-- FRAME_TRAILER after the full body, and START_MARK while a frame is taken (R131, R133, R134, R156 to R158):
the outcome by the first line of Table 7-2, from the notice, the capacity, the check and the focus gate as
its slot stands; the watch stopped, the last completed take id set, the slots aged, the judgement reported
with its two flags; and the result issued to the descriptor, for ACCEPTED only once its number has come. That
the number, and the end of a run of LOST takes, come in VAU's event and not in this one (log 21), and that the
intake counts and the CRC keep their values (log 35), are the model's choices. -/
def Obligations.FramesAreJudgedByTheTable : Prop :=
  ∀ (c : Chan) (t : TakeRec) (n : Notice) (s : State) (e : Instr) (ok : Bool),
    let x := s.cch.get c
    x.intake = .taking → x.take = some t → t.notice = some n →
    (e = .startMark c ∧ ok = false)
      ∨ (x.received = x.bodyLength ∧ ∃ k, e = .frameTrailer c k ∧ ok = (~~~ x.crc == k)) →
    ∃ (o : Outcome) (y : Cch) (r : Result) (u : State), exec e s = .next u
      ∧ (n.kind = .cut → o = .cut)
      ∧ (n.kind = .lightFault → o = .lightFault)
      ∧ (n.kind = .exposed →
        (t.desc.cap < x.bodyLength → o = .truncated)
        ∧ (x.bodyLength ≤ t.desc.cap → ok = false → o = .checkError)
        ∧ (x.bodyLength ≤ t.desc.cap → ok = true → ¬gatePassed s c → o = .soft)
        ∧ (x.bodyLength ≤ t.desc.cap → ok = true → gatePassed s c → o = .accepted))
      ∧ agedSlots x y
      ∧ resultFor s c t n o x.written (~~~ x.crc).toNat r
      ∧ u = { s with
          cch := s.cch.set c { y with
            frameWatch := none, lastDone := some x.takeId, intake := .between
            result := some (ResultJob.mk r (o == .accepted) true) }
          vau := { s.vau with judgements := s.vau.judgements
            ++ [Judgement.mk c t.leaf t.side t.panel o (~~~ x.crc).toNat n.degraded n.contact false false] }
          host := u.host }
      ∧ (o = .accepted → u.host = s.host)
      ∧ (o ≠ .accepted → u.host = { s.host with
          inFlight := s.host.inFlight ++ [HostWrite.mk (.result c) s.host.serial
            (s.descAddress c t.desc.bank t.desc.index + 12) (resultBytes r)]
          serial := s.host.serial + 1 })

/-- RESULT_WRITE_COMPLETE (R135): the frame's body writes and then the result complete, the descriptor is
reported FILLED, the take record is cleared, the channel is IDLE, and TAKEN is sent but for a CUT judged at
its watch (R136). FRAME_WATCH_EXPIRY (R136, R137): CUT by a CUT notice, with the descriptor consumed at
filled length and check value 0, and otherwise LOST, with the bytes written left in the buffer, the descriptor
FREE and the channel IDLE, or FAULTED with a report at the second LOST; a frame in progress goes on as spurned.
OCC's wait for the channel's take ends with the take (R63). It is the model's choice that the body writes of a
LOST take complete in the event of its judgement (log 5), that its descriptor is FREE at FBK, with an owed
hand-over made, in that same event (log 24), and that the intake counts and the CRC keep their values when the take has ended (log 35). -/
def Obligations.TakesEndInResultsOrLost : Prop :=
  (∀ (c : Chan) (j : ResultJob) (t : TakeRec) (s : State),
    let x := s.cch.get c
    x.result = some j → x.take = some t →
    (j.awaitsNumber = false → s.hasInFlight (.result c) = true →
      ∃ u : State, exec (.resultWriteComplete c) s = .next u.pollWait
        ∧ u = { s with
            cch := s.cch.set c { x with
              take := none, result := none, state := .idle
              sent := if j.sendAnswer then x.sent ++ [.answer .taken x.takeId] else x.sent }
            fbk := s.fbk.set c { s.fbk.get c with
              inbox := (s.fbk.get c).inbox ++ [.filled t.desc.bank t.desc.index] }
            host := u.host }
        ∧ s.host.Completed (fun w => w.writer == .body c || w.writer == .result c) u.host)
    ∧ (j.awaitsNumber = true ∨ s.hasInFlight (.result c) = false →
        exec (.resultWriteComplete c) s = .next s))
  ∧ (∀ (c : Chan) (t : TakeRec) (n : Notice) (k : Nat) (s : State),
    let x := s.cch.get c
    x.take = some t → t.notice = some n → x.frameWatch = some k → k ≠ 0 →
    let judged (o : Outcome) (faulted : Bool) : Vau := { s.vau with judgements := s.vau.judgements
      ++ [Judgement.mk c t.leaf t.side t.panel o 0 n.degraded n.contact faulted false] }
    ∃ (i : Intake) (y : Cch), (x.intake = .taking → i = .discarding .spurned x.takeId x.bodyLength x.received)
      ∧ (x.intake ≠ .taking → i = x.intake)
      ∧ agedSlots x y
      ∧ (n.kind = .cut → ∃ r, resultFor s c t n .cut 0 0 r
        ∧ exec (.frameWatchExpiry c) s = .next (State.pollWait { s with
          cch := s.cch.set c { y with
            intake := i, frameWatch := none, state := .receiving
            result := some (ResultJob.mk r false false) }
          vau := judged .cut false
          host := { s.host with
            inFlight := s.host.inFlight ++ [HostWrite.mk (.result c) s.host.serial
              (s.descAddress c t.desc.bank t.desc.index + 12) (resultBytes r)]
            serial := s.host.serial + 1 } }))
      ∧ (n.kind ≠ .cut → ∃ h, s.host.Completed (fun w => w.writer == .body c) h ∧
        let lost (st : ChanState) (faulted : Bool) : State := State.releaseDesc { s with
          cch := s.cch.set c { y with
            intake := i, frameWatch := none, take := none, lost := x.lost + 1, state := st }
          vau := judged .lost faulted, host := h } c t.desc.bank t.desc.index
        (x.lost = 0 → exec (.frameWatchExpiry c) s = .next (lost .idle false).pollWait)
        ∧ (1 ≤ x.lost → exec (.frameWatchExpiry c) s
          = .next ((lost .faulted true).toOcc (.faulted c)).pollWait)))
  ∧ (∀ (c : Chan) (s : State),
    ((s.cch.get c).take = none ∨ (s.cch.get c).frameWatch = none ∨ (s.cch.get c).frameWatch = some 0) →
      exec (.frameWatchExpiry c) s = .next s)
  ∧ (∀ s : State,
    ((∀ x, s.occ.work ≠ .channelWait x) → s.pollWait = s)
    ∧ (∀ x, s.occ.work = .channelWait x →
      (s.mustWait x = true → s.pollWait = s)
      ∧ (s.mustWait x = false → s.pollWait = s.runTodo (x :: s.occ.todo))))

/-! ### The frame banks (chapter 8) -/

/-- GRANT (R143, R144): a HOST bank named becomes GRANTED with four FREE descriptors and its channel is reported
to OCC; a GRANTED one is left as it stands. RESERVATION_REQUEST, DESCRIPTOR_READ_COMPLETE and
UNUSABLE_WRITE_COMPLETE (R145, R146): BUSY while a reservation or a search stands; otherwise the active bank
is chosen and its first FREE descriptor read, reserved when its capacity is usable, and else written UNUSABLE,
filled, and passed over; with no bank or no FREE descriptor, NO_ROOM. That the search has no bound but these steps
when the host GRANTs a bank again during it is the model's choice (log 44). The bytes of a result and of an UNUSABLE
one are those of Tables 7-3 and 11-12, with the codes of Table 11-13. -/
def Obligations.ReservationsSearchTheActiveBank : Prop :=
  (∀ (v : Word32) (s : State), ∃ t, exec (.grant v) s = .next t
    ∧ (let granted (c : Chan) (a b : Bool) : Bool :=
        (a && !(s.fbk.get c).bankA.granted) || (b && !(s.fbk.get c).bankB.granted)
      t = { s with
        fbk := t.fbk
        occ := { s.occ with inbox := s.occ.inbox
          ++ (if granted .left (v.getLsbD 0) (v.getLsbD 1) then [OccMsg.granted .left] else [])
          ++ (if granted .right (v.getLsbD 2) (v.getLsbD 3) then [OccMsg.granted .right] else []) } })
    ∧ ∀ (c : Chan) (b : BankId),
      let x := (s.fbk.get c).bank b
      let y := (t.fbk.get c).bank b
      let named := v.getLsbD ((if c = .left then 0 else 2) + (if b = .bankA then 0 else 1))
      t.fbk.get c = { s.fbk.get c with bankA := (t.fbk.get c).bankA, bankB := (t.fbk.get c).bankB }
      ∧ (named = true → x.granted = false → y.granted = true ∧ ∀ i, y.desc i = .free)
      ∧ (named = false ∨ x.granted = true → y = x))
  ∧ (∀ (c : Chan) (s : State),
    let f := s.fbk.get c
    let bank := if (f.bank f.active).granted = false ∧ (f.bank f.active.other).granted = true
      then f.active.other else f.active
    let noRoom : State := { s with
      fbk := s.fbk.set c { f with active := bank, search := none }
      occ := { s.occ with inbox := s.occ.inbox ++ [.noRoom c] } }
    ((f.bank bank).granted = false → s.seek c = noRoom)
    ∧ ((f.bank bank).granted = true → (∀ i, (f.bank bank).desc i ≠ .free) → s.seek c = noRoom)
    ∧ (∀ i : Fin 4, (f.bank bank).granted = true → (f.bank bank).desc i = .free →
        (∀ k, k < i → (f.bank bank).desc k ≠ .free) →
        s.seek c = { s with fbk := s.fbk.set c { f with active := bank, search := some (.reading i) } }))
  ∧ (∀ (c : Chan) (rest : List FbkMsg) (s : State), (s.fbk.get c).inbox = .reserve :: rest →
    let f := s.fbk.get c
    let u : State := { s with fbk := s.fbk.set c { f with inbox := rest } }
    ((f.search ≠ none ∨ ∃ b i, (f.bank b).desc i = .reserved) → exec (.reservationRequest c) s
      = .next { u with occ := { s.occ with inbox := s.occ.inbox ++ [.reserveBusy c] } })
    ∧ (f.search = none → (∀ b i, (f.bank b).desc i ≠ .reserved) →
      exec (.reservationRequest c) s = .next (u.seek c)))
  ∧ (∀ (c : Chan) (i : Fin 4) (b : List Byte) (s : State), (s.fbk.get c).search = some (.reading i) →
    let f := s.fbk.get c
    let cap := leNat b 8 4
    (64 ≤ cap → cap % 64 = 0 → exec (.descriptorReadComplete c b) s = .next { s with
      fbk := s.fbk.set c { f.setDesc f.active i .reserved with search := none }
      occ := { s.occ with inbox := s.occ.inbox
        ++ [.reserved c (Reservation.mk f.active i (leNat b 0 8) cap)] } })
    ∧ (cap < 64 ∨ cap % 64 ≠ 0 → exec (.descriptorReadComplete c b) s = .next { s with
      fbk := s.fbk.set c { f with search := some (.writing i) }
      host := { s.host with
        inFlight := s.host.inFlight ++ [HostWrite.mk (.fbk c) s.host.serial
          (s.descAddress c f.active i + 12) (unusableBytes s.vau.key)]
        serial := s.host.serial + 1 } }))
  ∧ (∀ (c : Chan) (i : Fin 4) (s : State), (s.fbk.get c).search = some (.writing i) →
    ∃ h, s.host.Completed (fun w => w.writer == .fbk c) h ∧ exec (.unusableWriteComplete c) s
      = .next ((State.fillDesc { s with host := h } c (s.fbk.get c).active i false).seek c))
  ∧ (∀ (c : Chan) (b : List Byte) (s : State),
    ((∀ i, (s.fbk.get c).search ≠ some (.reading i)) → exec (.descriptorReadComplete c b) s = .next s)
    ∧ ((∀ i, (s.fbk.get c).search ≠ some (.writing i)) → exec (.unusableWriteComplete c) s = .next s))
  ∧ (∀ key : Nat, LaidOut 12 52 (unusableBytes key) [(12, 1, 8), (20, 4, key)])
  ∧ (∀ r : Result, LaidOut 12 52 (resultBytes r)
    [(12, 1, r.outcome.code), (13, 1, (if r.degraded then 1 else 0) + (if r.contact then 2 else 0)),
     (14, 1, r.side.code), (15, 1, r.panel), (16, 4, r.filled), (20, 4, r.key), (24, 2, r.leaf),
     (26, 2, r.takeId.toNat), (28, 4, r.tag), (32, 4, r.time), (36, 4, r.dose), (40, 2, r.focus),
     (44, 4, r.check), (48, 4, r.number)])
  ∧ [Outcome.accepted, .cut, .lightFault, .truncated, .checkError, .soft, .lost].map (·.code)
    = [1, 2, 3, 4, 5, 6, 7]
  ∧ [Side.verso, .recto].map (·.code) = [1, 2]
  ∧ (∀ (s : State) (c : Chan) (b : BankId) (i : Fin 4), s.descAddress c b i
    = s.exp.base.toNat * 4096 + 0x2000 + (if c = .left then 0 else 512) + (if b = .bankA then 0 else 256)
      + 64 * i.val)

/-- RELEASE_REQUEST and DESCRIPTOR_FILLED (R146 to R148): a RESERVED descriptor named becomes FREE or FILLED and
another is left as it is, and a release is answered DONE; it waits for a search to end. The hand-over (R149, R150): a bank with four
FILLED descriptors goes back to the host whole, one with a hand-over owed when its reservation ends, and the
active bank in part when the volume state enters READY, HAND_WAIT or NO_VOLUME with a FILLED descriptor and
none RESERVED; it becomes HOST, its note is raised, and the other bank is active. -/
def Obligations.FullBanksAreHandedOver : Prop :=
  let handed (s : State) (c : Chan) (b : BankId) : State := { s with
    fbk := s.fbk.set c { (s.fbk.get c).setBank b { (s.fbk.get c).bank b with granted := false } with
      active := b.other, owed := false }
    exp := { s.exp with note := s.exp.note ||| (if c = .left then 0x02 else 0x04) } }
  (∀ (c : Chan) (b : BankId) (i : Fin 4) (s : State),
    let f := s.fbk.get c
    let freed : State := { s with fbk := s.fbk.set c (f.setDesc b i .free) }
    let filled : State := { s with fbk := s.fbk.set c (f.setDesc b i .filled) }
    ((f.bank b).desc i ≠ .reserved → s.releaseDesc c b i = s)
    ∧ ((f.bank b).desc i = .reserved → f.owed = false → s.releaseDesc c b i = freed)
    ∧ ((f.bank b).desc i = .reserved → f.owed = true → s.releaseDesc c b i = handed freed c b)
    ∧ (∀ r, (∀ k, k ≠ i → (f.bank b).desc k = .filled) → s.fillDesc c b i r = handed filled c b)
    ∧ (f.owed = true → s.fillDesc c b i true = handed filled c b)
    ∧ (∀ r k, k ≠ i → (f.bank b).desc k ≠ .filled → (f.owed = false ∨ r = false) →
        s.fillDesc c b i r = filled)
    ∧ (∀ k, (f.setDesc b i .free).bank b = { f.bank b with descs := ((f.setDesc b i .free).bank b).descs }
        ∧ ((f.setDesc b i .free).bank b).desc k = (if k = i then .free else (f.bank b).desc k)))
  ∧ (∀ (c : Chan) (b : BankId) (i : Fin 4) (rest : List FbkMsg) (s : State),
    let u : State := { s with fbk := s.fbk.set c { s.fbk.get c with inbox := rest } }
    ((s.fbk.get c).inbox = .release b i :: rest →
      ((s.fbk.get c).search = none → exec (.releaseRequest c) s
        = .next ((u.releaseDesc c b i).toOcc (.released c)))
      ∧ ((s.fbk.get c).search ≠ none → exec (.releaseRequest c) s = .next s))
    ∧ ((s.fbk.get c).inbox = .filled b i :: rest →
      (((s.fbk.get c).bank b).desc i = .reserved →
        exec (.descriptorFilled c) s = .next (u.fillDesc c b i true))
      ∧ (((s.fbk.get c).bank b).desc i ≠ .reserved → exec (.descriptorFilled c) s = .next u)))
  ∧ (∀ (v : VolState) (s : State), ∃ u w : State, s.enterRest v = w ∧
    let r : State := { s with vau := { s.vau with vol := v } }
    let step (c : Chan) (a b : State) : Prop :=
      let f := a.fbk.get c
      let bank := f.bank f.active
      let some_ (d : DescState) : Prop := ∃ i, bank.desc i = d
      (bank.granted = false ∨ ¬some_ .filled → b = a)
      ∧ (bank.granted = true → some_ .filled → ¬some_ .reserved → b = handed a c f.active)
      ∧ (bank.granted = true → some_ .filled → some_ .reserved →
          b = { a with fbk := a.fbk.set c { f with owed := true } })
    step .left r u ∧ step .right u w)

/-! ### Side-band slots and the focus gate (chapter 9) -/

/-- SIDEBAND and SIDEBAND_MALFORMED (R123, R153, R154): the start mark ends a frame in progress; a message whose
type a slot holds is stored there whole, marked when its check byte fails and then only with store-on-error;
every other message changes no slot, and a malformed one does no more than its start mark. A longer payload than 24 bytes is no SIDEBAND and
is discarded (log 23). READ_SIDEBAND, SIDEBAND_COPY and SIDEBAND_REPORT_WRITTEN (R159): one order at a time;
each channel copies its slots and writes its report, and the second write answers DONE and starts the next
order. -/
def Obligations.SidebandMessagesFillTheirSlots : Prop :=
  (∀ (c : Chan) (type : Byte) (p : List Byte) (k : Byte) (s : State),
    let x := s.cch.get c
    let sum := type.toNat + p.length + (p.map BitVec.toNat).sum + k.toNat
    (∃ u, exec (.startMark c) s = .next u ∧ (u.cch.get c).intake = .between
        ∧ exec (.sideband c type p k) s = exec (.sideband c type p k) u)
    ∧ (x.intake = .between → 24 < p.length → exec (.sideband c type p k) s = .next s)
    ∧ (x.intake = .between → p.length ≤ 24 →
      (type = 0 ∨ (∀ i, (x.slot i).type ≠ type.toNat) → exec (.sideband c type p k) s = .next s)
      ∧ (∀ i, type ≠ 0 → (x.slot i).type = type.toNat → (∀ j, j < i → (x.slot j).type ≠ type.toNat) →
        ∃ y : Cch, y = { x with slots := y.slots }
          ∧ exec (.sideband c type p k) s = .next { s with cch := s.cch.set c y }
          ∧ (∀ j, j ≠ i → y.slot j = x.slot j)
          ∧ (sum % 256 = 0 ∨ (x.slot i).storeOnError = true → y.slot i = { x.slot i with
              valid := true, checkError := decide (sum % 256 ≠ 0), age := 0, received := true
              length := p.length, payload := p ++ List.replicate (24 - p.length) 0 })
          ∧ (sum % 256 ≠ 0 → (x.slot i).storeOnError = false → y.slot i = x.slot i))))
  ∧ (∀ (c : Chan) (type l : Byte) (s : State),
    let x := s.cch.get c
    (∃ u, exec (.sidebandMalformed c type l) s = .next u ∧ exec (.startMark c) s = .next u
      ∧ (u.cch.get c).intake = .between)
    ∧ (x.intake = .between → exec (.sidebandMalformed c type l) s = .next s)
    ∧ (∀ kind id n m, x.intake = .discarding kind id n m → exec (.sidebandMalformed c type l) s = .next { s with
        cch := s.cch.set c { x with intake := .between, sent := x.sent ++ [.answer kind id] } }))
  ∧ (∀ (s s' : State) (d : Dispatched), s.nextOrder .cch = some (d, s') →
    (s.sideband.job = none → exec .readSideband s = .next { s' with
      sideband := ⟨some ⟨d.slot, ⟨true, true⟩, ⟨true, true⟩⟩, []⟩ })
    ∧ (s.sideband.job ≠ none → exec .readSideband s = .next { s' with
      sideband := { s.sideband with waiting := s.sideband.waiting ++ [d.slot] } }))
  ∧ (∀ (c : Chan) (j : SidebandJob) (s : State), s.sideband.job = some j →
    let offset := if c = .left then 0x1100 else 0x1200
    (j.toCopy.has c = true → exec (.sidebandCopy c) s = .next { s with
      sideband := { s.sideband with job := some { j with toCopy := j.toCopy.erase c } }
      host := { s.host with
        inFlight := s.host.inFlight ++ [HostWrite.mk (.report c) s.host.serial
          (s.exp.base.toNat * 4096 + offset) (reportBytes (s.cch.get c).slots)]
        serial := s.host.serial + 1 } })
    ∧ (j.toCopy.has c = false → exec (.sidebandCopy c) s = .next s)
    ∧ (s.hasInFlight (.report c) = true → j.toWrite.has c = true →
      ∃ h, s.host.Completed (fun w => w.writer == .report c) h ∧
        let u : State := { s with host := h }
        ((j.toWrite.erase c).isEmpty = false → exec (.sidebandReportWritten c) s = .next { u with
            sideband := { s.sideband with job := some { j with toWrite := j.toWrite.erase c } } })
        ∧ ((j.toWrite.erase c).isEmpty = true → exec (.sidebandReportWritten c) s = .next (State.answer { u with
            sideband := ⟨s.sideband.waiting.head?.map (fun i => ⟨i, ⟨true, true⟩, ⟨true, true⟩⟩),
              s.sideband.waiting.tail⟩ } j.slot .done)))
    ∧ (s.hasInFlight (.report c) = false ∨ j.toWrite.has c = false →
        exec (.sidebandReportWritten c) s = .next s))
  ∧ (∀ v : Vector SbSlot 4, (∀ i : Fin 4, v[i].payload.length = 24) →
    (reportBytes v).length = 256
    ∧ (∀ i : Fin 4,
      (reportBytes v)[32 * i.val]? = some (BitVec.ofNat 8 v[i].type)
      ∧ (reportBytes v)[32 * i.val + 1]? = some (BitVec.ofNat 8
          ((if v[i].storeOnError then 1 else 0) + (if v[i].valid then 2 else 0)
            + (if v[i].checkError then 4 else 0) + (if v[i].received then 8 else 0)))
      ∧ (reportBytes v)[32 * i.val + 2]? = some (BitVec.ofNat 8 v[i].age)
      ∧ (reportBytes v)[32 * i.val + 3]? = some (BitVec.ofNat 8 v[i].length)
      ∧ (∀ k, k < 24 → (reportBytes v)[32 * i.val + 4 + k]? = v[i].payload[k]?)
      ∧ (∀ k, 28 ≤ k → k < 32 → (reportBytes v)[32 * i.val + k]? = some 0))
    ∧ ∀ k, 128 ≤ k → k < 256 → (reportBytes v)[k]? = some 0)

/-! ### The invariants of the whole controller -/

/-- Host memory keeps its canonical form over every step (log 4): its addresses strictly rise, so that equal
memories are equal data. -/
def Obligations.MemoryStaysCanonical : Prop :=
  ∀ s t : State, s.memoryCanonical → step s = .next t → t.memoryCanonical

/-- The state right after power-on meets every law that the statements above say each step keeps. -/
def Obligations.ResetMeetsEveryLaw : Prop :=
  State.reset.memoryCanonical ∧ State.reset.exp.QueueExact ∧ State.reset.InterlockLaw
  ∧ State.reset.VolumeCoherent ∧ State.reset.ldu.DoseLaw ∧ State.reset.vau.CaptureLaw
  ∧ State.reset.vau.NumberLaw ∧ resetValues State.reset
end

