-- ==== Sys2Proof/Laws/State.lean ====
section
/-! SUPPORT. One lemma for each field under each plain update of State: what the update sets, and that it
sets nothing else. All true by rfl. -/

namespace Sys2Proof.Machine

/-! ### withPending -/

@[simp] theorem State.withPending_exp (s : State) (q : List Instr) : (s.withPending q).exp = s.exp := rfl
@[simp] theorem State.withPending_pfs (s : State) (q : List Instr) : (s.withPending q).pfs = s.pfs := rfl
@[simp] theorem State.withPending_vau (s : State) (q : List Instr) : (s.withPending q).vau = s.vau := rfl
@[simp] theorem State.withPending_occ (s : State) (q : List Instr) : (s.withPending q).occ = s.occ := rfl
@[simp] theorem State.withPending_tsq (s : State) (q : List Instr) : (s.withPending q).tsq = s.tsq := rfl
@[simp] theorem State.withPending_ldu (s : State) (q : List Instr) : (s.withPending q).ldu = s.ldu := rfl
@[simp] theorem State.withPending_cch (s : State) (q : List Instr) : (s.withPending q).cch = s.cch := rfl
@[simp] theorem State.withPending_sideband (s : State) (q : List Instr) : (s.withPending q).sideband = s.sideband := rfl
@[simp] theorem State.withPending_fbk (s : State) (q : List Instr) : (s.withPending q).fbk = s.fbk := rfl
@[simp] theorem State.withPending_host (s : State) (q : List Instr) : (s.withPending q).host = s.host := rfl
@[simp] theorem State.withPending_free (s : State) (q : List Instr) : (s.withPending q).free = s.free := rfl
@[simp] theorem State.withPending_pending (s : State) (q : List Instr) :
    (s.withPending q).pending = q := rfl

/-! ### setOcc -/

@[simp] theorem State.setOcc_exp (s : State) (o : Occ) : (s.setOcc o).exp = s.exp := rfl
@[simp] theorem State.setOcc_pfs (s : State) (o : Occ) : (s.setOcc o).pfs = s.pfs := rfl
@[simp] theorem State.setOcc_vau (s : State) (o : Occ) : (s.setOcc o).vau = s.vau := rfl
@[simp] theorem State.setOcc_occ (s : State) (o : Occ) :
    (s.setOcc o).occ = o := rfl
@[simp] theorem State.setOcc_tsq (s : State) (o : Occ) : (s.setOcc o).tsq = s.tsq := rfl
@[simp] theorem State.setOcc_ldu (s : State) (o : Occ) : (s.setOcc o).ldu = s.ldu := rfl
@[simp] theorem State.setOcc_cch (s : State) (o : Occ) : (s.setOcc o).cch = s.cch := rfl
@[simp] theorem State.setOcc_sideband (s : State) (o : Occ) : (s.setOcc o).sideband = s.sideband := rfl
@[simp] theorem State.setOcc_fbk (s : State) (o : Occ) : (s.setOcc o).fbk = s.fbk := rfl
@[simp] theorem State.setOcc_host (s : State) (o : Occ) : (s.setOcc o).host = s.host := rfl
@[simp] theorem State.setOcc_free (s : State) (o : Occ) : (s.setOcc o).free = s.free := rfl
@[simp] theorem State.setOcc_pending (s : State) (o : Occ) : (s.setOcc o).pending = s.pending := rfl

/-! ### setTsq -/

@[simp] theorem State.setTsq_exp (s : State) (t : Tsq) : (s.setTsq t).exp = s.exp := rfl
@[simp] theorem State.setTsq_pfs (s : State) (t : Tsq) : (s.setTsq t).pfs = s.pfs := rfl
@[simp] theorem State.setTsq_vau (s : State) (t : Tsq) : (s.setTsq t).vau = s.vau := rfl
@[simp] theorem State.setTsq_occ (s : State) (t : Tsq) : (s.setTsq t).occ = s.occ := rfl
@[simp] theorem State.setTsq_tsq (s : State) (t : Tsq) :
    (s.setTsq t).tsq = t := rfl
@[simp] theorem State.setTsq_ldu (s : State) (t : Tsq) : (s.setTsq t).ldu = s.ldu := rfl
@[simp] theorem State.setTsq_cch (s : State) (t : Tsq) : (s.setTsq t).cch = s.cch := rfl
@[simp] theorem State.setTsq_sideband (s : State) (t : Tsq) : (s.setTsq t).sideband = s.sideband := rfl
@[simp] theorem State.setTsq_fbk (s : State) (t : Tsq) : (s.setTsq t).fbk = s.fbk := rfl
@[simp] theorem State.setTsq_host (s : State) (t : Tsq) : (s.setTsq t).host = s.host := rfl
@[simp] theorem State.setTsq_free (s : State) (t : Tsq) : (s.setTsq t).free = s.free := rfl
@[simp] theorem State.setTsq_pending (s : State) (t : Tsq) : (s.setTsq t).pending = s.pending := rfl

/-! ### setVau -/

@[simp] theorem State.setVau_exp (s : State) (v : Vau) : (s.setVau v).exp = s.exp := rfl
@[simp] theorem State.setVau_pfs (s : State) (v : Vau) : (s.setVau v).pfs = s.pfs := rfl
@[simp] theorem State.setVau_vau (s : State) (v : Vau) :
    (s.setVau v).vau = v := rfl
@[simp] theorem State.setVau_occ (s : State) (v : Vau) : (s.setVau v).occ = s.occ := rfl
@[simp] theorem State.setVau_tsq (s : State) (v : Vau) : (s.setVau v).tsq = s.tsq := rfl
@[simp] theorem State.setVau_ldu (s : State) (v : Vau) : (s.setVau v).ldu = s.ldu := rfl
@[simp] theorem State.setVau_cch (s : State) (v : Vau) : (s.setVau v).cch = s.cch := rfl
@[simp] theorem State.setVau_sideband (s : State) (v : Vau) : (s.setVau v).sideband = s.sideband := rfl
@[simp] theorem State.setVau_fbk (s : State) (v : Vau) : (s.setVau v).fbk = s.fbk := rfl
@[simp] theorem State.setVau_host (s : State) (v : Vau) : (s.setVau v).host = s.host := rfl
@[simp] theorem State.setVau_free (s : State) (v : Vau) : (s.setVau v).free = s.free := rfl
@[simp] theorem State.setVau_pending (s : State) (v : Vau) : (s.setVau v).pending = s.pending := rfl

/-! ### setLdu -/

@[simp] theorem State.setLdu_exp (s : State) (l : Ldu) : (s.setLdu l).exp = s.exp := rfl
@[simp] theorem State.setLdu_pfs (s : State) (l : Ldu) : (s.setLdu l).pfs = s.pfs := rfl
@[simp] theorem State.setLdu_vau (s : State) (l : Ldu) : (s.setLdu l).vau = s.vau := rfl
@[simp] theorem State.setLdu_occ (s : State) (l : Ldu) : (s.setLdu l).occ = s.occ := rfl
@[simp] theorem State.setLdu_tsq (s : State) (l : Ldu) : (s.setLdu l).tsq = s.tsq := rfl
@[simp] theorem State.setLdu_ldu (s : State) (l : Ldu) :
    (s.setLdu l).ldu = l := rfl
@[simp] theorem State.setLdu_cch (s : State) (l : Ldu) : (s.setLdu l).cch = s.cch := rfl
@[simp] theorem State.setLdu_sideband (s : State) (l : Ldu) : (s.setLdu l).sideband = s.sideband := rfl
@[simp] theorem State.setLdu_fbk (s : State) (l : Ldu) : (s.setLdu l).fbk = s.fbk := rfl
@[simp] theorem State.setLdu_host (s : State) (l : Ldu) : (s.setLdu l).host = s.host := rfl
@[simp] theorem State.setLdu_free (s : State) (l : Ldu) : (s.setLdu l).free = s.free := rfl
@[simp] theorem State.setLdu_pending (s : State) (l : Ldu) : (s.setLdu l).pending = s.pending := rfl

/-! ### setCch -/

@[simp] theorem State.setCch_exp (s : State) (c : Chan) (x : Cch) : (s.setCch c x).exp = s.exp := rfl
@[simp] theorem State.setCch_pfs (s : State) (c : Chan) (x : Cch) : (s.setCch c x).pfs = s.pfs := rfl
@[simp] theorem State.setCch_vau (s : State) (c : Chan) (x : Cch) : (s.setCch c x).vau = s.vau := rfl
@[simp] theorem State.setCch_occ (s : State) (c : Chan) (x : Cch) : (s.setCch c x).occ = s.occ := rfl
@[simp] theorem State.setCch_tsq (s : State) (c : Chan) (x : Cch) : (s.setCch c x).tsq = s.tsq := rfl
@[simp] theorem State.setCch_ldu (s : State) (c : Chan) (x : Cch) : (s.setCch c x).ldu = s.ldu := rfl
@[simp] theorem State.setCch_cch (s : State) (c : Chan) (x : Cch) :
    (s.setCch c x).cch = s.cch.set c x := rfl
@[simp] theorem State.setCch_sideband (s : State) (c : Chan) (x : Cch) : (s.setCch c x).sideband = s.sideband := rfl
@[simp] theorem State.setCch_fbk (s : State) (c : Chan) (x : Cch) : (s.setCch c x).fbk = s.fbk := rfl
@[simp] theorem State.setCch_host (s : State) (c : Chan) (x : Cch) : (s.setCch c x).host = s.host := rfl
@[simp] theorem State.setCch_free (s : State) (c : Chan) (x : Cch) : (s.setCch c x).free = s.free := rfl
@[simp] theorem State.setCch_pending (s : State) (c : Chan) (x : Cch) : (s.setCch c x).pending = s.pending := rfl

/-! ### setFbk -/

@[simp] theorem State.setFbk_exp (s : State) (c : Chan) (f : Fbk) : (s.setFbk c f).exp = s.exp := rfl
@[simp] theorem State.setFbk_pfs (s : State) (c : Chan) (f : Fbk) : (s.setFbk c f).pfs = s.pfs := rfl
@[simp] theorem State.setFbk_vau (s : State) (c : Chan) (f : Fbk) : (s.setFbk c f).vau = s.vau := rfl
@[simp] theorem State.setFbk_occ (s : State) (c : Chan) (f : Fbk) : (s.setFbk c f).occ = s.occ := rfl
@[simp] theorem State.setFbk_tsq (s : State) (c : Chan) (f : Fbk) : (s.setFbk c f).tsq = s.tsq := rfl
@[simp] theorem State.setFbk_ldu (s : State) (c : Chan) (f : Fbk) : (s.setFbk c f).ldu = s.ldu := rfl
@[simp] theorem State.setFbk_cch (s : State) (c : Chan) (f : Fbk) : (s.setFbk c f).cch = s.cch := rfl
@[simp] theorem State.setFbk_sideband (s : State) (c : Chan) (f : Fbk) : (s.setFbk c f).sideband = s.sideband := rfl
@[simp] theorem State.setFbk_fbk (s : State) (c : Chan) (f : Fbk) :
    (s.setFbk c f).fbk = s.fbk.set c f := rfl
@[simp] theorem State.setFbk_host (s : State) (c : Chan) (f : Fbk) : (s.setFbk c f).host = s.host := rfl
@[simp] theorem State.setFbk_free (s : State) (c : Chan) (f : Fbk) : (s.setFbk c f).free = s.free := rfl
@[simp] theorem State.setFbk_pending (s : State) (c : Chan) (f : Fbk) : (s.setFbk c f).pending = s.pending := rfl

/-! ### setWork -/

@[simp] theorem State.setWork_exp (s : State) (w : Work) : (s.setWork w).exp = s.exp := rfl
@[simp] theorem State.setWork_pfs (s : State) (w : Work) : (s.setWork w).pfs = s.pfs := rfl
@[simp] theorem State.setWork_vau (s : State) (w : Work) : (s.setWork w).vau = s.vau := rfl
@[simp] theorem State.setWork_occ (s : State) (w : Work) :
    (s.setWork w).occ = { s.occ with work := w } := rfl
@[simp] theorem State.setWork_tsq (s : State) (w : Work) : (s.setWork w).tsq = s.tsq := rfl
@[simp] theorem State.setWork_ldu (s : State) (w : Work) : (s.setWork w).ldu = s.ldu := rfl
@[simp] theorem State.setWork_cch (s : State) (w : Work) : (s.setWork w).cch = s.cch := rfl
@[simp] theorem State.setWork_sideband (s : State) (w : Work) : (s.setWork w).sideband = s.sideband := rfl
@[simp] theorem State.setWork_fbk (s : State) (w : Work) : (s.setWork w).fbk = s.fbk := rfl
@[simp] theorem State.setWork_host (s : State) (w : Work) : (s.setWork w).host = s.host := rfl
@[simp] theorem State.setWork_free (s : State) (w : Work) : (s.setWork w).free = s.free := rfl
@[simp] theorem State.setWork_pending (s : State) (w : Work) : (s.setWork w).pending = s.pending := rfl

/-! ### raise -/

@[simp] theorem State.raise_exp (s : State) (n : Note) :
    (s.raise n).exp = s.exp.raise n := rfl
@[simp] theorem State.raise_pfs (s : State) (n : Note) : (s.raise n).pfs = s.pfs := rfl
@[simp] theorem State.raise_vau (s : State) (n : Note) : (s.raise n).vau = s.vau := rfl
@[simp] theorem State.raise_occ (s : State) (n : Note) : (s.raise n).occ = s.occ := rfl
@[simp] theorem State.raise_tsq (s : State) (n : Note) : (s.raise n).tsq = s.tsq := rfl
@[simp] theorem State.raise_ldu (s : State) (n : Note) : (s.raise n).ldu = s.ldu := rfl
@[simp] theorem State.raise_cch (s : State) (n : Note) : (s.raise n).cch = s.cch := rfl
@[simp] theorem State.raise_sideband (s : State) (n : Note) : (s.raise n).sideband = s.sideband := rfl
@[simp] theorem State.raise_fbk (s : State) (n : Note) : (s.raise n).fbk = s.fbk := rfl
@[simp] theorem State.raise_host (s : State) (n : Note) : (s.raise n).host = s.host := rfl
@[simp] theorem State.raise_free (s : State) (n : Note) : (s.raise n).free = s.free := rfl
@[simp] theorem State.raise_pending (s : State) (n : Note) : (s.raise n).pending = s.pending := rfl

/-! ### toOcc -/

@[simp] theorem State.toOcc_exp (s : State) (m : OccMsg) : (s.toOcc m).exp = s.exp := rfl
@[simp] theorem State.toOcc_pfs (s : State) (m : OccMsg) : (s.toOcc m).pfs = s.pfs := rfl
@[simp] theorem State.toOcc_vau (s : State) (m : OccMsg) : (s.toOcc m).vau = s.vau := rfl
@[simp] theorem State.toOcc_occ (s : State) (m : OccMsg) :
    (s.toOcc m).occ = { s.occ with inbox := s.occ.inbox ++ [m] } := rfl
@[simp] theorem State.toOcc_tsq (s : State) (m : OccMsg) : (s.toOcc m).tsq = s.tsq := rfl
@[simp] theorem State.toOcc_ldu (s : State) (m : OccMsg) : (s.toOcc m).ldu = s.ldu := rfl
@[simp] theorem State.toOcc_cch (s : State) (m : OccMsg) : (s.toOcc m).cch = s.cch := rfl
@[simp] theorem State.toOcc_sideband (s : State) (m : OccMsg) : (s.toOcc m).sideband = s.sideband := rfl
@[simp] theorem State.toOcc_fbk (s : State) (m : OccMsg) : (s.toOcc m).fbk = s.fbk := rfl
@[simp] theorem State.toOcc_host (s : State) (m : OccMsg) : (s.toOcc m).host = s.host := rfl
@[simp] theorem State.toOcc_free (s : State) (m : OccMsg) : (s.toOcc m).free = s.free := rfl
@[simp] theorem State.toOcc_pending (s : State) (m : OccMsg) : (s.toOcc m).pending = s.pending := rfl

/-! ### toLdu -/

@[simp] theorem State.toLdu_exp (s : State) (m : LduMsg) : (s.toLdu m).exp = s.exp := rfl
@[simp] theorem State.toLdu_pfs (s : State) (m : LduMsg) : (s.toLdu m).pfs = s.pfs := rfl
@[simp] theorem State.toLdu_vau (s : State) (m : LduMsg) : (s.toLdu m).vau = s.vau := rfl
@[simp] theorem State.toLdu_occ (s : State) (m : LduMsg) : (s.toLdu m).occ = s.occ := rfl
@[simp] theorem State.toLdu_tsq (s : State) (m : LduMsg) : (s.toLdu m).tsq = s.tsq := rfl
@[simp] theorem State.toLdu_ldu (s : State) (m : LduMsg) :
    (s.toLdu m).ldu = { s.ldu with inbox := s.ldu.inbox ++ [m] } := rfl
@[simp] theorem State.toLdu_cch (s : State) (m : LduMsg) : (s.toLdu m).cch = s.cch := rfl
@[simp] theorem State.toLdu_sideband (s : State) (m : LduMsg) : (s.toLdu m).sideband = s.sideband := rfl
@[simp] theorem State.toLdu_fbk (s : State) (m : LduMsg) : (s.toLdu m).fbk = s.fbk := rfl
@[simp] theorem State.toLdu_host (s : State) (m : LduMsg) : (s.toLdu m).host = s.host := rfl
@[simp] theorem State.toLdu_free (s : State) (m : LduMsg) : (s.toLdu m).free = s.free := rfl
@[simp] theorem State.toLdu_pending (s : State) (m : LduMsg) : (s.toLdu m).pending = s.pending := rfl

/-! ### toTsq -/

@[simp] theorem State.toTsq_exp (s : State) (m : TsqMsg) : (s.toTsq m).exp = s.exp := rfl
@[simp] theorem State.toTsq_pfs (s : State) (m : TsqMsg) : (s.toTsq m).pfs = s.pfs := rfl
@[simp] theorem State.toTsq_vau (s : State) (m : TsqMsg) : (s.toTsq m).vau = s.vau := rfl
@[simp] theorem State.toTsq_occ (s : State) (m : TsqMsg) : (s.toTsq m).occ = s.occ := rfl
@[simp] theorem State.toTsq_tsq (s : State) (m : TsqMsg) :
    (s.toTsq m).tsq = { s.tsq with inbox := s.tsq.inbox ++ [m] } := rfl
@[simp] theorem State.toTsq_ldu (s : State) (m : TsqMsg) : (s.toTsq m).ldu = s.ldu := rfl
@[simp] theorem State.toTsq_cch (s : State) (m : TsqMsg) : (s.toTsq m).cch = s.cch := rfl
@[simp] theorem State.toTsq_sideband (s : State) (m : TsqMsg) : (s.toTsq m).sideband = s.sideband := rfl
@[simp] theorem State.toTsq_fbk (s : State) (m : TsqMsg) : (s.toTsq m).fbk = s.fbk := rfl
@[simp] theorem State.toTsq_host (s : State) (m : TsqMsg) : (s.toTsq m).host = s.host := rfl
@[simp] theorem State.toTsq_free (s : State) (m : TsqMsg) : (s.toTsq m).free = s.free := rfl
@[simp] theorem State.toTsq_pending (s : State) (m : TsqMsg) : (s.toTsq m).pending = s.pending := rfl

/-! ### toFbk -/

@[simp] theorem State.toFbk_exp (s : State) (c : Chan) (m : FbkMsg) : (s.toFbk c m).exp = s.exp := rfl
@[simp] theorem State.toFbk_pfs (s : State) (c : Chan) (m : FbkMsg) : (s.toFbk c m).pfs = s.pfs := rfl
@[simp] theorem State.toFbk_vau (s : State) (c : Chan) (m : FbkMsg) : (s.toFbk c m).vau = s.vau := rfl
@[simp] theorem State.toFbk_occ (s : State) (c : Chan) (m : FbkMsg) : (s.toFbk c m).occ = s.occ := rfl
@[simp] theorem State.toFbk_tsq (s : State) (c : Chan) (m : FbkMsg) : (s.toFbk c m).tsq = s.tsq := rfl
@[simp] theorem State.toFbk_ldu (s : State) (c : Chan) (m : FbkMsg) : (s.toFbk c m).ldu = s.ldu := rfl
@[simp] theorem State.toFbk_cch (s : State) (c : Chan) (m : FbkMsg) : (s.toFbk c m).cch = s.cch := rfl
@[simp] theorem State.toFbk_sideband (s : State) (c : Chan) (m : FbkMsg) : (s.toFbk c m).sideband = s.sideband := rfl
@[simp] theorem State.toFbk_fbk (s : State) (c : Chan) (m : FbkMsg) :
    (s.toFbk c m).fbk = s.fbk.set c { s.fbk.get c with inbox := (s.fbk.get c).inbox ++ [m] } := rfl
@[simp] theorem State.toFbk_host (s : State) (c : Chan) (m : FbkMsg) : (s.toFbk c m).host = s.host := rfl
@[simp] theorem State.toFbk_free (s : State) (c : Chan) (m : FbkMsg) : (s.toFbk c m).free = s.free := rfl
@[simp] theorem State.toFbk_pending (s : State) (c : Chan) (m : FbkMsg) : (s.toFbk c m).pending = s.pending := rfl

/-! ### report -/

@[simp] theorem State.report_exp (s : State) (j : Judgement) : (s.report j).exp = s.exp := rfl
@[simp] theorem State.report_pfs (s : State) (j : Judgement) : (s.report j).pfs = s.pfs := rfl
@[simp] theorem State.report_vau (s : State) (j : Judgement) :
    (s.report j).vau = { s.vau with judgements := s.vau.judgements ++ [j] } := rfl
@[simp] theorem State.report_occ (s : State) (j : Judgement) : (s.report j).occ = s.occ := rfl
@[simp] theorem State.report_tsq (s : State) (j : Judgement) : (s.report j).tsq = s.tsq := rfl
@[simp] theorem State.report_ldu (s : State) (j : Judgement) : (s.report j).ldu = s.ldu := rfl
@[simp] theorem State.report_cch (s : State) (j : Judgement) : (s.report j).cch = s.cch := rfl
@[simp] theorem State.report_sideband (s : State) (j : Judgement) : (s.report j).sideband = s.sideband := rfl
@[simp] theorem State.report_fbk (s : State) (j : Judgement) : (s.report j).fbk = s.fbk := rfl
@[simp] theorem State.report_host (s : State) (j : Judgement) : (s.report j).host = s.host := rfl
@[simp] theorem State.report_free (s : State) (j : Judgement) : (s.report j).free = s.free := rfl
@[simp] theorem State.report_pending (s : State) (j : Judgement) : (s.report j).pending = s.pending := rfl

/-! ### notify -/

@[simp] theorem State.notify_exp (s : State) (c : Chan) (n : Notice) : (s.notify c n).exp = s.exp := rfl
@[simp] theorem State.notify_pfs (s : State) (c : Chan) (n : Notice) : (s.notify c n).pfs = s.pfs := rfl
@[simp] theorem State.notify_vau (s : State) (c : Chan) (n : Notice) : (s.notify c n).vau = s.vau := rfl
@[simp] theorem State.notify_occ (s : State) (c : Chan) (n : Notice) : (s.notify c n).occ = s.occ := rfl
@[simp] theorem State.notify_tsq (s : State) (c : Chan) (n : Notice) : (s.notify c n).tsq = s.tsq := rfl
@[simp] theorem State.notify_ldu (s : State) (c : Chan) (n : Notice) : (s.notify c n).ldu = s.ldu := rfl
@[simp] theorem State.notify_cch (s : State) (c : Chan) (n : Notice) :
    (s.notify c n).cch = s.cch.set c { s.cch.get c with notices := (s.cch.get c).notices ++ [n] } := rfl
@[simp] theorem State.notify_sideband (s : State) (c : Chan) (n : Notice) : (s.notify c n).sideband = s.sideband := rfl
@[simp] theorem State.notify_fbk (s : State) (c : Chan) (n : Notice) : (s.notify c n).fbk = s.fbk := rfl
@[simp] theorem State.notify_host (s : State) (c : Chan) (n : Notice) : (s.notify c n).host = s.host := rfl
@[simp] theorem State.notify_free (s : State) (c : Chan) (n : Notice) : (s.notify c n).free = s.free := rfl
@[simp] theorem State.notify_pending (s : State) (c : Chan) (n : Notice) : (s.notify c n).pending = s.pending := rfl

/-! ### dropFbk -/

@[simp] theorem State.dropFbk_exp (s : State) (c : Chan) (r : List FbkMsg) : (s.dropFbk c r).exp = s.exp := rfl
@[simp] theorem State.dropFbk_pfs (s : State) (c : Chan) (r : List FbkMsg) : (s.dropFbk c r).pfs = s.pfs := rfl
@[simp] theorem State.dropFbk_vau (s : State) (c : Chan) (r : List FbkMsg) : (s.dropFbk c r).vau = s.vau := rfl
@[simp] theorem State.dropFbk_occ (s : State) (c : Chan) (r : List FbkMsg) : (s.dropFbk c r).occ = s.occ := rfl
@[simp] theorem State.dropFbk_tsq (s : State) (c : Chan) (r : List FbkMsg) : (s.dropFbk c r).tsq = s.tsq := rfl
@[simp] theorem State.dropFbk_ldu (s : State) (c : Chan) (r : List FbkMsg) : (s.dropFbk c r).ldu = s.ldu := rfl
@[simp] theorem State.dropFbk_cch (s : State) (c : Chan) (r : List FbkMsg) : (s.dropFbk c r).cch = s.cch := rfl
@[simp] theorem State.dropFbk_sideband (s : State) (c : Chan) (r : List FbkMsg) : (s.dropFbk c r).sideband = s.sideband := rfl
@[simp] theorem State.dropFbk_fbk (s : State) (c : Chan) (r : List FbkMsg) :
    (s.dropFbk c r).fbk = s.fbk.set c { s.fbk.get c with inbox := r } := rfl
@[simp] theorem State.dropFbk_host (s : State) (c : Chan) (r : List FbkMsg) : (s.dropFbk c r).host = s.host := rfl
@[simp] theorem State.dropFbk_free (s : State) (c : Chan) (r : List FbkMsg) : (s.dropFbk c r).free = s.free := rfl
@[simp] theorem State.dropFbk_pending (s : State) (c : Chan) (r : List FbkMsg) : (s.dropFbk c r).pending = s.pending := rfl

/-! ### issue -/

@[simp] theorem State.issue_exp (s : State) (w : Writer) (a : Nat) (b : List Byte) : (s.issue w a b).exp = s.exp := rfl
@[simp] theorem State.issue_pfs (s : State) (w : Writer) (a : Nat) (b : List Byte) : (s.issue w a b).pfs = s.pfs := rfl
@[simp] theorem State.issue_vau (s : State) (w : Writer) (a : Nat) (b : List Byte) : (s.issue w a b).vau = s.vau := rfl
@[simp] theorem State.issue_occ (s : State) (w : Writer) (a : Nat) (b : List Byte) : (s.issue w a b).occ = s.occ := rfl
@[simp] theorem State.issue_tsq (s : State) (w : Writer) (a : Nat) (b : List Byte) : (s.issue w a b).tsq = s.tsq := rfl
@[simp] theorem State.issue_ldu (s : State) (w : Writer) (a : Nat) (b : List Byte) : (s.issue w a b).ldu = s.ldu := rfl
@[simp] theorem State.issue_cch (s : State) (w : Writer) (a : Nat) (b : List Byte) : (s.issue w a b).cch = s.cch := rfl
@[simp] theorem State.issue_sideband (s : State) (w : Writer) (a : Nat) (b : List Byte) : (s.issue w a b).sideband = s.sideband := rfl
@[simp] theorem State.issue_fbk (s : State) (w : Writer) (a : Nat) (b : List Byte) : (s.issue w a b).fbk = s.fbk := rfl
@[simp] theorem State.issue_host (s : State) (w : Writer) (a : Nat) (b : List Byte) :
    (s.issue w a b).host = { s.host with inFlight := s.host.inFlight ++ [⟨w, s.host.serial, a, b⟩], serial := s.host.serial + 1 } := rfl
@[simp] theorem State.issue_free (s : State) (w : Writer) (a : Nat) (b : List Byte) : (s.issue w a b).free = s.free := rfl
@[simp] theorem State.issue_pending (s : State) (w : Writer) (a : Nat) (b : List Byte) : (s.issue w a b).pending = s.pending := rfl

/-! ### answer -/

@[simp] theorem State.answer_exp (s : State) (i : Fin 16) (k : AnswerCode) (f : List FieldVal) : (s.answer i k f).exp = s.exp := rfl
@[simp] theorem State.answer_pfs (s : State) (i : Fin 16) (k : AnswerCode) (f : List FieldVal) : (s.answer i k f).pfs = s.pfs := rfl
@[simp] theorem State.answer_vau (s : State) (i : Fin 16) (k : AnswerCode) (f : List FieldVal) : (s.answer i k f).vau = s.vau := rfl
@[simp] theorem State.answer_occ (s : State) (i : Fin 16) (k : AnswerCode) (f : List FieldVal) : (s.answer i k f).occ = s.occ := rfl
@[simp] theorem State.answer_tsq (s : State) (i : Fin 16) (k : AnswerCode) (f : List FieldVal) : (s.answer i k f).tsq = s.tsq := rfl
@[simp] theorem State.answer_ldu (s : State) (i : Fin 16) (k : AnswerCode) (f : List FieldVal) : (s.answer i k f).ldu = s.ldu := rfl
@[simp] theorem State.answer_cch (s : State) (i : Fin 16) (k : AnswerCode) (f : List FieldVal) : (s.answer i k f).cch = s.cch := rfl
@[simp] theorem State.answer_sideband (s : State) (i : Fin 16) (k : AnswerCode) (f : List FieldVal) : (s.answer i k f).sideband = s.sideband := rfl
@[simp] theorem State.answer_fbk (s : State) (i : Fin 16) (k : AnswerCode) (f : List FieldVal) : (s.answer i k f).fbk = s.fbk := rfl
@[simp] theorem State.answer_host (s : State) (i : Fin 16) (k : AnswerCode) (f : List FieldVal) :
    (s.answer i k f).host = { s.host with inFlight := s.host.inFlight ++ [⟨.slotAnswer i, s.host.serial, s.slotAddr i + 64, answerBytes k f⟩], serial := s.host.serial + 1 } := rfl
@[simp] theorem State.answer_free (s : State) (i : Fin 16) (k : AnswerCode) (f : List FieldVal) : (s.answer i k f).free = s.free := rfl
@[simp] theorem State.answer_pending (s : State) (i : Fin 16) (k : AnswerCode) (f : List FieldVal) : (s.answer i k f).pending = s.pending := rfl

/-! ### land -/

@[simp] theorem State.land_exp (s : State) (p : HostWrite → Bool) : (s.land p).exp = s.exp := rfl
@[simp] theorem State.land_pfs (s : State) (p : HostWrite → Bool) : (s.land p).pfs = s.pfs := rfl
@[simp] theorem State.land_vau (s : State) (p : HostWrite → Bool) : (s.land p).vau = s.vau := rfl
@[simp] theorem State.land_occ (s : State) (p : HostWrite → Bool) : (s.land p).occ = s.occ := rfl
@[simp] theorem State.land_tsq (s : State) (p : HostWrite → Bool) : (s.land p).tsq = s.tsq := rfl
@[simp] theorem State.land_ldu (s : State) (p : HostWrite → Bool) : (s.land p).ldu = s.ldu := rfl
@[simp] theorem State.land_cch (s : State) (p : HostWrite → Bool) : (s.land p).cch = s.cch := rfl
@[simp] theorem State.land_sideband (s : State) (p : HostWrite → Bool) : (s.land p).sideband = s.sideband := rfl
@[simp] theorem State.land_fbk (s : State) (p : HostWrite → Bool) : (s.land p).fbk = s.fbk := rfl
@[simp] theorem State.land_free (s : State) (p : HostWrite → Bool) : (s.land p).free = s.free := rfl
@[simp] theorem State.land_pending (s : State) (p : HostWrite → Bool) : (s.land p).pending = s.pending := rfl

/-! ### landVau -/

@[simp] theorem State.landVau_exp (s : State) (n : Nat) : (s.landVau n).exp = s.exp := rfl
@[simp] theorem State.landVau_pfs (s : State) (n : Nat) : (s.landVau n).pfs = s.pfs := rfl
@[simp] theorem State.landVau_vau (s : State) (n : Nat) : (s.landVau n).vau = s.vau := rfl
@[simp] theorem State.landVau_occ (s : State) (n : Nat) : (s.landVau n).occ = s.occ := rfl
@[simp] theorem State.landVau_tsq (s : State) (n : Nat) : (s.landVau n).tsq = s.tsq := rfl
@[simp] theorem State.landVau_ldu (s : State) (n : Nat) : (s.landVau n).ldu = s.ldu := rfl
@[simp] theorem State.landVau_cch (s : State) (n : Nat) : (s.landVau n).cch = s.cch := rfl
@[simp] theorem State.landVau_sideband (s : State) (n : Nat) : (s.landVau n).sideband = s.sideband := rfl
@[simp] theorem State.landVau_fbk (s : State) (n : Nat) : (s.landVau n).fbk = s.fbk := rfl
@[simp] theorem State.landVau_free (s : State) (n : Nat) : (s.landVau n).free = s.free := rfl
@[simp] theorem State.landVau_pending (s : State) (n : Nat) : (s.landVau n).pending = s.pending := rfl

/-! ### Pairs -/

@[simp] theorem Pair.get_set_same {α : Type} (p : Pair α) (c : Chan) (x : α) : (p.set c x).get c = x := by
  cases c <;> rfl

theorem Pair.get_set_other {α : Type} (p : Pair α) (c d : Chan) (x : α) (h : d ≠ c) :
    (p.set c x).get d = p.get d := by
  cases c <;> cases d <;> first | rfl | exact absurd rfl h

@[simp] theorem Pair.get_left {α : Type} (p : Pair α) : p.get .left = p.left := rfl
@[simp] theorem Pair.get_right {α : Type} (p : Pair α) : p.get .right = p.right := rfl

/-! ### Order slots -/

theorem Exp.slot_setSlot (e : Exp) (i j : Fin 16) (st : SlotState) :
    (e.setSlot i st).slot j = if i = j then st else e.slot j := by
  simp only [Exp.slot, Exp.setSlot, Vector.getElem_set, Fin.ext_iff]

@[simp] theorem Exp.setSlot_queue (e : Exp) (i : Fin 16) (st : SlotState) :
    (e.setSlot i st).queue = e.queue := rfl

@[simp] theorem Exp.raise_slots (e : Exp) (n : Note) : (e.raise n).slots = e.slots := rfl
@[simp] theorem Exp.raise_queue (e : Exp) (n : Note) : (e.raise n).queue = e.queue := rfl
@[simp] theorem Exp.raise_take (e : Exp) (n : Note) : (e.raise n).take = e.take := rfl
@[simp] theorem Exp.raise_enable (e : Exp) (n : Note) : (e.raise n).enable = e.enable := rfl
@[simp] theorem Exp.raise_base (e : Exp) (n : Note) : (e.raise n).base = e.base := rfl
@[simp] theorem Exp.raise_orders (e : Exp) (n : Note) : (e.raise n).orders = e.orders := rfl
@[simp] theorem Exp.raise_slot (e : Exp) (n : Note) (i : Fin 16) : (e.raise n).slot i = e.slot i := rfl

end Sys2Proof.Machine
end

