-- ==== Sys2Proof/Laws/Ops.lean ====
section
/-! SUPPORT. What the shared operations can do, said once: writing records only issues writes, the frame
bank manager's operations change only its state and a note, and the opening cycle's operations keep
everything that is not theirs. -/

namespace Sys2Proof.Machine

/-! ### Issuing writes -/

/-- t is s with writes issued and nothing else. -/
def State.Issued (s t : State) : Prop :=
  ∃ ws : List HostWrite,
    t = { s with host := { s.host with
      inFlight := s.host.inFlight ++ ws, serial := s.host.serial + ws.length } }

theorem State.Issued.refl (s : State) : State.Issued s s := ⟨[], by simp⟩

theorem State.Issued.trans {s t u : State} (h : State.Issued s t) (k : State.Issued t u) :
    State.Issued s u := by
  obtain ⟨ws, rfl⟩ := h
  obtain ⟨vs, rfl⟩ := k
  exact ⟨ws ++ vs, by simp [Nat.add_assoc]⟩

theorem State.issue_issued (s : State) (w : Writer) (a : Nat) (b : List Byte) :
    State.Issued s (s.issue w a b) := ⟨[⟨w, s.host.serial, a, b⟩], rfl⟩

theorem State.answer_issued (s : State) (i : Fin 16) (k : AnswerCode) (f : List FieldVal) :
    State.Issued s (s.answer i k f) := State.issue_issued ..

theorem State.foldl_issued {α : Type} (f : State → α → State) (hf : ∀ s x, State.Issued s (f s x))
    (l : List α) (s : State) : State.Issued s (l.foldl f s) := by
  induction l generalizing s with
  | nil => exact .refl s
  | cons x l ih => exact (hf s x).trans (ih _)

theorem State.writeEntry_issued (s : State) (e : Nat) (x : LedgerEntry) :
    State.Issued s (s.writeEntry e x) :=
  ((State.issue_issued ..).trans (State.issue_issued ..)).trans (State.issue_issued ..)

theorem State.writeHeader_issued (s : State) : State.Issued s s.writeHeader :=
  (State.issue_issued ..).trans (State.issue_issued ..)

theorem State.writeEntryWhole_issued (s : State) (e : Nat) (x : LedgerEntry) :
    State.Issued s (s.writeEntryWhole e x) := State.issue_issued ..

theorem State.writeHeaderWhole_issued (s : State) (d : Nat) : State.Issued s (s.writeHeaderWhole d) :=
  State.issue_issued ..

theorem State.writeCloseValid_issued (s : State) (n : Nat) : State.Issued s (s.writeCloseValid n) :=
  State.issue_issued ..

theorem State.writeCloseFields_issued (s : State) (f : CloseFields) :
    State.Issued s (s.writeCloseFields f) := (State.issue_issued ..).trans (State.issue_issued ..)

/-- Writing the changed records of the account issues writes and nothing else (R36). -/
theorem State.commit_issued (s : State) (old : Vau) (h : Bool) : State.Issued s (s.commit old h) := by
  have k := State.foldl_issued (fun s (p : Nat × LedgerEntry) => s.writeEntry p.1 p.2)
    (fun _ _ => State.writeEntry_issued ..) (changedFrom 0 old.mirror s.vau.mirror) s
  unfold State.commit
  split
  · exact k.trans (State.writeHeader_issued _)
  · exact k

theorem State.issueResult_issued (s : State) (c : Chan) (d : Reservation) (r : Result) :
    State.Issued s (s.issueResult c d r) := State.issue_issued ..

theorem State.answerStops_issued (s : State) : State.Issued s s.answerStops :=
  State.foldl_issued _ (fun _ _ => State.answer_issued ..) _ s

/-- A change of the account is made in VAU, and then only writes are issued (R36). -/
theorem State.changeAccount_issued (s : State) (f : Vau → Vau) (h : Bool) :
    State.Issued { s with vau := f s.vau } (s.changeAccount f h) := State.commit_issued ..

section IssuedFields
variable {s t : State} (h : State.Issued s t)
include h

theorem State.Issued.exp : t.exp = s.exp := by obtain ⟨ws, rfl⟩ := h; rfl
theorem State.Issued.pfs : t.pfs = s.pfs := by obtain ⟨ws, rfl⟩ := h; rfl
theorem State.Issued.vau : t.vau = s.vau := by obtain ⟨ws, rfl⟩ := h; rfl
theorem State.Issued.occ : t.occ = s.occ := by obtain ⟨ws, rfl⟩ := h; rfl
theorem State.Issued.tsq : t.tsq = s.tsq := by obtain ⟨ws, rfl⟩ := h; rfl
theorem State.Issued.ldu : t.ldu = s.ldu := by obtain ⟨ws, rfl⟩ := h; rfl
theorem State.Issued.cch : t.cch = s.cch := by obtain ⟨ws, rfl⟩ := h; rfl
theorem State.Issued.sideband : t.sideband = s.sideband := by obtain ⟨ws, rfl⟩ := h; rfl
theorem State.Issued.fbk : t.fbk = s.fbk := by obtain ⟨ws, rfl⟩ := h; rfl
theorem State.Issued.mem : t.host.mem = s.host.mem := by obtain ⟨ws, rfl⟩ := h; rfl
theorem State.Issued.free : t.free = s.free := by obtain ⟨ws, rfl⟩ := h; rfl
theorem State.Issued.pending : t.pending = s.pending := by obtain ⟨ws, rfl⟩ := h; rfl

end IssuedFields

/-! ### What an operation of the cycle keeps -/

/-- What the opening cycle's operations, the frame bank manager's and the account's leave as they are. -/
structure State.Kept (s t : State) : Prop where
  exp : t.exp = { s.exp with note := t.exp.note, orders := t.exp.orders }
  note : ∀ k, s.exp.note.getLsbD k = true → t.exp.note.getLsbD k = true
  pfs : t.pfs = s.pfs
  tsq : t.tsq = { s.tsq with inbox := t.tsq.inbox }
  ldu : t.ldu = { s.ldu with inbox := t.ldu.inbox }
  sideband : t.sideband = s.sideband
  mem : t.host.mem = s.host.mem
  free : t.free = s.free
  pending : t.pending = s.pending

theorem State.Kept.refl (s : State) : State.Kept s s := ⟨rfl, fun _ h => h, rfl, rfl, rfl, rfl, rfl, rfl, rfl⟩

theorem State.Kept.trans {s t u : State} (h : State.Kept s t) (k : State.Kept t u) : State.Kept s u where
  exp := by rw [k.exp, h.exp]
  note := fun i hi => k.note i (h.note i hi)
  pfs := k.pfs.trans h.pfs
  tsq := by rw [k.tsq, h.tsq]
  ldu := by rw [k.ldu, h.ldu]
  sideband := k.sideband.trans h.sideband
  mem := k.mem.trans h.mem
  free := k.free.trans h.free
  pending := k.pending.trans h.pending

theorem State.Issued.kept {s t : State} (h : State.Issued s t) : State.Kept s t := by
  obtain ⟨ws, rfl⟩ := h
  exact ⟨rfl, fun _ h => h, rfl, rfl, rfl, rfl, rfl, rfl, rfl⟩

theorem State.changeAccount_kept (s : State) (f : Vau → Vau) (h : Bool) :
    State.Kept s (s.changeAccount f h) :=
  State.Kept.trans (t := { s with vau := f s.vau }) ⟨rfl, fun _ h => h, rfl, rfl, rfl, rfl, rfl, rfl, rfl⟩
    (State.changeAccount_issued s f h).kept

theorem State.setOcc_kept (s : State) (o : Occ) : State.Kept s (s.setOcc o) :=
  ⟨rfl, fun _ h => h, rfl, rfl, rfl, rfl, rfl, rfl, rfl⟩
theorem State.setVau_kept (s : State) (v : Vau) : State.Kept s (s.setVau v) :=
  ⟨rfl, fun _ h => h, rfl, rfl, rfl, rfl, rfl, rfl, rfl⟩
theorem State.setFbk_kept (s : State) (c : Chan) (f : Fbk) : State.Kept s (s.setFbk c f) :=
  ⟨rfl, fun _ h => h, rfl, rfl, rfl, rfl, rfl, rfl, rfl⟩
theorem State.setCch_kept (s : State) (c : Chan) (x : Cch) : State.Kept s (s.setCch c x) :=
  ⟨rfl, fun _ h => h, rfl, rfl, rfl, rfl, rfl, rfl, rfl⟩
theorem State.setWork_kept (s : State) (w : Work) : State.Kept s (s.setWork w) :=
  ⟨rfl, fun _ h => h, rfl, rfl, rfl, rfl, rfl, rfl, rfl⟩
theorem State.toOcc_kept (s : State) (m : OccMsg) : State.Kept s (s.toOcc m) :=
  ⟨rfl, fun _ h => h, rfl, rfl, rfl, rfl, rfl, rfl, rfl⟩
theorem State.toTsq_kept (s : State) (m : TsqMsg) : State.Kept s (s.toTsq m) :=
  ⟨rfl, fun _ h => h, rfl, rfl, rfl, rfl, rfl, rfl, rfl⟩
theorem State.toLdu_kept (s : State) (m : LduMsg) : State.Kept s (s.toLdu m) :=
  ⟨rfl, fun _ h => h, rfl, rfl, rfl, rfl, rfl, rfl, rfl⟩
theorem State.toFbk_kept (s : State) (c : Chan) (m : FbkMsg) : State.Kept s (s.toFbk c m) :=
  ⟨rfl, fun _ h => h, rfl, rfl, rfl, rfl, rfl, rfl, rfl⟩
theorem State.raise_kept (s : State) (n : Note) : State.Kept s (s.raise n) :=
  ⟨rfl, fun k hk => by simp [State.raise, Exp.raise, hk], rfl, rfl, rfl, rfl, rfl, rfl, rfl⟩
theorem State.report_kept (s : State) (j : Judgement) : State.Kept s (s.report j) :=
  ⟨rfl, fun _ h => h, rfl, rfl, rfl, rfl, rfl, rfl, rfl⟩

/-! ### The frame bank manager (R145 to R150) -/

/-- t is s but for the banks and a note: the frame bank manager's operations with no message. -/
structure State.Banked (s t : State) : Prop where
  kept : State.Kept s t
  vau : t.vau = s.vau
  occ : t.occ = s.occ
  cch : t.cch = s.cch
  host : t.host = s.host

theorem State.Banked.refl (s : State) : State.Banked s s := ⟨.refl s, rfl, rfl, rfl, rfl⟩

theorem State.Banked.trans {s t u : State} (h : State.Banked s t) (k : State.Banked t u) :
    State.Banked s u :=
  ⟨h.kept.trans k.kept, k.vau.trans h.vau, k.occ.trans h.occ, k.cch.trans h.cch, k.host.trans h.host⟩

theorem State.handOver_banked (s : State) (c : Chan) (b : BankId) : State.Banked s (s.handOver c b) :=
  ⟨(State.setFbk_kept ..).trans (State.raise_kept ..), rfl, rfl, rfl, rfl⟩

theorem State.setFbk_banked (s : State) (c : Chan) (f : Fbk) : State.Banked s (s.setFbk c f) :=
  ⟨State.setFbk_kept .., rfl, rfl, rfl, rfl⟩

theorem State.releaseDesc_banked (s : State) (c : Chan) (b : BankId) (i : Fin 4) :
    State.Banked s (s.releaseDesc c b i) := by
  unfold State.releaseDesc
  dsimp only
  split
  · split
    · exact (State.setFbk_banked ..).trans (State.handOver_banked ..)
    · exact State.setFbk_banked ..
  · exact .refl s

theorem State.fillDesc_banked (s : State) (c : Chan) (b : BankId) (i : Fin 4) (r : Bool) :
    State.Banked s (s.fillDesc c b i r) := by
  unfold State.fillDesc
  dsimp only
  split
  · exact (State.setFbk_banked ..).trans (State.handOver_banked ..)
  · exact State.setFbk_banked ..

theorem State.partialHandOverOf_banked (s : State) (c : Chan) : State.Banked s (s.partialHandOverOf c) := by
  unfold State.partialHandOverOf
  dsimp only
  split
  · split
    · exact State.setFbk_banked ..
    · exact State.handOver_banked ..
  · exact .refl s

theorem State.partialHandOver_banked (s : State) : State.Banked s s.partialHandOver :=
  (State.partialHandOverOf_banked ..).trans (State.partialHandOverOf_banked ..)

/-- Entering READY, HAND_WAIT or NO_VOLUME sets the volume state, and only the banks and their notes may
follow (R150). -/
theorem State.enterRest_banked (s : State) (v : VolState) :
    State.Banked { s with vau := { s.vau with vol := v } } (s.enterRest v) :=
  State.partialHandOver_banked _

theorem State.enterRest_kept (s : State) (v : VolState) : State.Kept s (s.enterRest v) :=
  State.Kept.trans (t := { s with vau := { s.vau with vol := v } })
    ⟨rfl, fun _ h => h, rfl, rfl, rfl, rfl, rfl, rfl, rfl⟩ (State.enterRest_banked s v).kept

@[simp] theorem State.enterRest_vau (s : State) (v : VolState) :
    (s.enterRest v).vau = { s.vau with vol := v } := (State.enterRest_banked s v).vau

@[simp] theorem State.enterRest_occ (s : State) (v : VolState) : (s.enterRest v).occ = s.occ :=
  (State.enterRest_banked s v).occ

theorem State.seek_kept (s : State) (c : Chan) : State.Kept s (s.seek c) := by
  unfold State.seek
  dsimp only
  split
  · exact State.setFbk_kept ..
  · exact (State.setFbk_kept ..).trans (State.toOcc_kept ..)

/-! ### The opening cycle (R57 to R76) -/

theorem State.releaseHeldOf_kept (s : State) (c : Chan) : State.Kept s (s.releaseHeldOf c) := by
  unfold State.releaseHeldOf
  split
  · exact (State.setOcc_kept ..).trans (State.releaseDesc_banked ..).kept
  · exact .refl s

theorem State.releaseHeld_kept (s : State) : State.Kept s s.releaseHeld :=
  (State.releaseHeldOf_kept ..).trans (State.releaseHeldOf_kept ..)

theorem State.askRelease_kept (s : State) (c : Chan) : State.Kept s (s.askRelease c) := by
  unfold State.askRelease
  split
  · exact (State.setOcc_kept ..).trans (State.toFbk_kept ..)
  · exact .refl s

theorem State.abandonRetakes_kept (s : State) : State.Kept s s.abandonRetakes :=
  (State.changeAccount_kept ..).trans (State.setOcc_kept ..)

theorem State.endOrder_kept (s : State) (k : AnswerCode) (f : List FieldVal) (v : VolState) :
    State.Kept s (s.endOrder k f v) := by
  unfold State.endOrder
  split
  · exact .refl s
  · exact (((State.answer_issued ..).trans (State.answerStops_issued _)).kept.trans
      (State.setOcc_kept ..)).trans (State.enterRest_kept ..)

theorem State.endDone_kept (s : State) (f : List FieldVal) : State.Kept s (s.endDone f) :=
  State.endOrder_kept ..

theorem State.endStopped_kept (s : State) : State.Kept s s.endStopped := by
  have h := State.releaseHeld_kept s
  unfold State.endStopped
  dsimp only
  split
  · exact h.trans (State.endOrder_kept ..)
  · exact h.trans (State.setOcc_kept ..)

theorem State.pauseAt_kept (s : State) (r : Reason) (e b : Nat) : State.Kept s (s.pauseAt r e b) := by
  unfold State.pauseAt
  have h := (State.releaseHeld_kept s).trans (State.abandonRetakes_kept _)
  dsimp only
  split
  · exact h.trans ((State.Kept.trans (State.setVau_kept _ _) (State.raise_kept ..)).trans
      (State.endOrder_kept ..))
  · exact h.trans (State.endOrder_kept ..)

theorem State.pause_kept (s : State) (r : Reason) (b : Nat) : State.Kept s (s.pause r b) := State.pauseAt_kept ..

theorem State.requestTurn_kept (s : State) : State.Kept s s.requestTurn := by
  unfold State.requestTurn
  split
  · exact State.pause_kept ..
  · exact (State.setOcc_kept ..).trans (State.toTsq_kept ..)

theorem State.reserveOn_kept (s : State) (x : Exposure) (c : Chan) : State.Kept s (s.reserveOn x c) :=
  (State.setOcc_kept ..).trans (State.toFbk_kept ..)

theorem State.askAdmission_kept (s : State) (x : Exposure) : State.Kept s (s.askAdmission x) :=
  (State.setOcc_kept ..).trans (State.toLdu_kept ..)

theorem State.phaseEnd_kept (s : State) : State.Kept s s.phaseEnd := by
  unfold State.phaseEnd
  repeat' split
  all_goals first
    | exact .refl s
    | exact State.pause_kept ..
    | exact State.endDone_kept ..
    | exact State.requestTurn_kept ..
    | exact (State.raise_kept ..).trans (State.endDone_kept ..)

theorem State.runTodo_kept (s : State) (l : List Exposure) : State.Kept s (s.runTodo l) := by
  induction l with
  | nil => exact (State.setOcc_kept ..).trans (State.phaseEnd_kept ..)
  | cons x l ih =>
    unfold State.runTodo
    dsimp only
    repeat' split
    all_goals first
      | exact State.pause_kept ..
      | exact State.setOcc_kept ..
      | exact ih
      | exact (State.setOcc_kept ..).trans (State.reserveOn_kept ..)

theorem State.goOn_kept (s : State) (p : Bool) : State.Kept s (s.goOn p) := by
  unfold State.goOn
  dsimp only
  split <;> exact State.runTodo_kept ..

theorem State.afterJudged_kept (s : State) : State.Kept s s.afterJudged := by
  unfold State.afterJudged
  split
  · split
    · exact State.goOn_kept ..
    · exact .refl s
  · exact .refl s

theorem State.pollWait_kept (s : State) : State.Kept s s.pollWait := by
  unfold State.pollWait
  split
  · split
    · exact .refl s
    · exact State.runTodo_kept ..
  · exact .refl s

theorem State.checkInterlock_kept (s : State) (l : List Exposure) : State.Kept s (s.checkInterlock l) := by
  unfold State.checkInterlock
  repeat' split
  all_goals first
    | exact State.pause_kept ..
    | exact State.runTodo_kept ..
    | exact (State.setOcc_kept ..).trans (State.toTsq_kept ..)

theorem State.runPhase_kept (s : State) : State.Kept s s.runPhase := by
  unfold State.runPhase
  split
  · exact State.pause_kept ..
  · exact State.runTodo_kept ..
  · exact State.checkInterlock_kept ..

theorem State.startPhase_kept (s : State) : State.Kept s s.startPhase :=
  (State.setOcc_kept ..).trans (State.runPhase_kept _)

theorem State.accept_kept (s : State) (i : Fin 16) (k : CycleKind) (n : ChanSet) (l : Nat) :
    State.Kept s (s.accept i k n l) := ⟨rfl, fun _ h => h, rfl, rfl, rfl, rfl, rfl, rfl, rfl⟩

theorem State.stopWork_kept (s : State) : State.Kept s s.stopWork := by
  unfold State.stopWork
  split
  all_goals first
    | exact State.endStopped_kept ..
    | exact State.toTsq_kept ..
    | exact (State.releaseHeld_kept s).trans (State.toLdu_kept ..)
    | exact State.toLdu_kept ..
    | exact .refl s

end Sys2Proof.Machine
end

