-- ==== Sys2Proof/Laws/Cycle.lean ====
section
/-! SUPPORT. What the opening cycle's commands keep (chapter 4): each answers a next state, in which the
port's slots, the store, the sequencer, the light unit and host memory are as before. -/

namespace Sys2Proof.Machine

/-- The next state of a meaning, when it is one. -/
theorem next_inj {s t : State} (h : (Host.Outcome.next s : StepOutcome) = .next t) : s = t := by
  injection h

theorem State.nextOrder_kept {s t : State} {o : Owner} {d : Dispatched} (h : s.nextOrder o = some (d, t)) :
    State.Kept s t := by
  unfold State.nextOrder at h
  cases k : takeOrder o s.exp.orders with
  | none => simp [k] at h
  | some r =>
    simp only [k, Option.map_some, Option.some.injEq, Prod.mk.injEq] at h
    obtain ⟨-, rfl⟩ := h
    exact ⟨rfl, fun _ h => h, rfl, rfl, rfl, rfl, rfl, rfl, rfl⟩

theorem State.nextMsg_kept {s t : State} {f : Sender} {m : OccMsg} (h : s.nextMsg f = some (m, t)) :
    State.Kept s t := by
  unfold State.nextMsg at h
  cases k : takeMsg f s.occ.inbox with
  | none => simp [k] at h
  | some r =>
    simp only [k, Option.map_some, Option.some.injEq, Prod.mk.injEq] at h
    obtain ⟨-, rfl⟩ := h
    exact ⟨rfl, fun _ h => h, rfl, rfl, rfl, rfl, rfl, rfl, rfl⟩

theorem State.nextLdu_kept {s t : State} {m : LduMsg} (h : s.nextLdu = some (m, t)) : State.Kept s t := by
  unfold State.nextLdu at h
  split at h
  · simp at h
  · simp only [Option.some.injEq, Prod.mk.injEq] at h
    obtain ⟨-, rfl⟩ := h
    exact ⟨rfl, fun _ h => h, rfl, rfl, rfl, rfl, rfl, rfl, rfl⟩

theorem State.cycleOrder_kept (s : State) (i : Fin 16) (f : State → State)
    (hf : ∀ s, State.Kept s (f s)) : State.Kept s (s.cycleOrder i f) := by
  unfold State.cycleOrder
  split
  · exact (State.answer_issued ..).kept
  · exact hf s

theorem State.turnOrder_kept (s : State) (i : Fin 16) : State.Kept s (s.turnOrder i) := by
  unfold State.turnOrder
  dsimp only
  repeat' split
  all_goals first
    | exact (State.answer_issued ..).kept
    | exact (State.accept_kept ..).trans (State.pause_kept ..)
    | exact (State.accept_kept ..).trans (State.requestTurn_kept ..)

theorem State.retakeOrder_kept (s : State) (i : Fin 16) (e : Nat) (d : Side) (p : Nat) :
    State.Kept s (s.retakeOrder i e d p) := by
  unfold State.retakeOrder
  repeat' split
  all_goals first
    | exact (State.answer_issued ..).kept
    | exact (State.accept_kept ..).trans (State.checkInterlock_kept ..)

theorem State.stopOrder_kept (s : State) (i : Fin 16) : State.Kept s (s.stopOrder i) := by
  unfold State.stopOrder
  repeat' split
  all_goals first
    | exact (State.answer_issued ..).kept
    | exact State.setOcc_kept ..
    | exact ((State.setOcc_kept ..).trans (State.abandonRetakes_kept _)).trans (State.stopWork_kept _)

theorem State.reserved_kept (s : State) (x : Exposure) (c : Chan) (r : Reservation) :
    State.Kept s (s.reserved x c r) := by
  unfold State.reserved
  dsimp only
  split
  · exact (State.setOcc_kept ..).trans (State.endStopped_kept _)
  · split
    · split
      · exact (State.setOcc_kept ..).trans (State.pause_kept ..)
      · exact (State.setOcc_kept ..).trans (State.reserveOn_kept ..)
    · exact (State.setOcc_kept ..).trans (State.askAdmission_kept ..)

theorem State.noRoom_kept (s : State) (x : Exposure) (c : Chan) : State.Kept s (s.noRoom x c) := by
  unfold State.noRoom
  split
  · exact State.endStopped_kept ..
  · exact State.setOcc_kept ..

theorem State.sendArm_kept (s : State) (c : Chan) (n : Nat) : State.Kept s (s.sendArm c n) := by
  unfold State.sendArm
  split
  · exact .refl s
  · exact (State.setCch_kept ..).trans (State.setOcc_kept ..)

theorem State.askArms_kept (s : State) (x : Exposure) (n : Nat) : State.Kept s (s.askArms x n) := by
  unfold State.askArms
  dsimp only
  split
  · split
    · exact ((State.setWork_kept ..).trans (State.sendArm_kept ..)).trans (State.sendArm_kept ..)
    · exact (State.setWork_kept ..).trans (State.sendArm_kept ..)
  · split
    · exact (State.setWork_kept ..).trans (State.sendArm_kept ..)
    · exact State.setWork_kept ..

theorem State.applyWithhold_kept (s : State) (x : Exposure) (c : Chan) :
    State.Kept s (s.applyWithhold x c) := (State.changeAccount_kept ..).trans (State.setOcc_kept ..)

theorem State.admissionAnswer_kept (s : State) (x : Exposure) (a : AdmissionReply) :
    State.Kept s (s.admissionAnswer x a) := by
  cases a with
  | admitted time d =>
    simp only [State.admissionAnswer]
    split
    · exact State.setWork_kept ..
    · exact State.askArms_kept ..
  | split =>
    simp only [State.admissionAnswer]
    split
    · exact State.setWork_kept ..
    · exact ((State.askRelease_kept ..).trans (State.askRelease_kept ..)).trans (State.runTodo_kept ..)
  | withheld c b =>
    simp only [State.admissionAnswer]
    split
    · exact (State.applyWithhold_kept ..).trans (State.setWork_kept ..)
    · exact (State.applyWithhold_kept ..).trans ((State.askRelease_kept ..).trans (State.goOn_kept ..))
  | doseLimit c b =>
    simp only [State.admissionAnswer]
    split
    · exact State.setWork_kept ..
    · exact State.pause_kept ..
  | abandoned => exact State.endStopped_kept _
  | busy => exact .refl s

theorem State.askFire_kept (s : State) (x : Exposure) : State.Kept s (s.askFire x) :=
  ⟨rfl, fun _ h => h, rfl, rfl, rfl, rfl, rfl, rfl, rfl⟩

theorem State.afterArmed_kept (s : State) (x : Exposure) (a b : ChanSet) :
    State.Kept s (s.afterArmed x a b) := by
  unfold State.afterArmed
  split
  · split
    · exact (State.setWork_kept ..).trans (State.toLdu_kept ..)
    · split
      · exact State.askFire_kept ..
      · exact .refl _
  · exact .refl _

theorem State.armedAnswer_kept (s : State) (x : Exposure) (a b : ChanSet) (c : Chan) (ok : Bool) :
    State.Kept s (s.armedAnswer x a b c ok) := (State.setOcc_kept ..).trans (State.afterArmed_kept ..)

theorem State.fireAnswer_kept (s : State) (x : Exposure) (a : FireReply) :
    State.Kept s (s.fireAnswer x a) := by
  cases a with
  | strobeEnd =>
    simp only [State.fireAnswer]
    split
    · exact State.setWork_kept ..
    · split
      · exact State.pause_kept ..
      · split
        · exact (State.setWork_kept ..).trans (State.afterJudged_kept _)
        · exact State.runTodo_kept ..
  | notReady =>
    simp only [State.fireAnswer]
    split
    · exact State.setWork_kept ..
    · exact State.pause_kept ..
  | aborted => exact State.endStopped_kept _
  | notAdmitted => exact .refl s

theorem State.turned_kept (s : State) (r : Nat) : State.Kept s (s.turned r) := by
  unfold State.turned
  dsimp only
  split
  · exact ((State.changeAccount_kept ..).trans (State.setOcc_kept ..)).trans (State.endStopped_kept _)
  · split
    · exact ((State.changeAccount_kept ..).trans (State.setOcc_kept ..)).trans (State.pause_kept ..)
    · split
      · exact ((State.changeAccount_kept ..).trans (State.setOcc_kept ..)).trans (State.startPhase_kept _)
      · exact ((State.changeAccount_kept ..).trans (State.setOcc_kept ..)).trans (State.endDone_kept ..)

theorem State.turnCompletion_kept (s : State) (a : TurnReply) : State.Kept s (s.turnCompletion a) := by
  cases a with
  | turned r => exact State.turned_kept ..
  | armNotReady =>
    simp only [State.turnCompletion]
    split
    · exact State.endStopped_kept _
    · exact State.pause_kept ..
  | failed reason entry => exact State.pauseAt_kept ..
  | stopped => exact State.endStopped_kept _

theorem State.cameraFault_kept (s : State) : State.Kept s s.cameraFault := by
  unfold State.cameraFault
  repeat' split
  all_goals first
    | exact .refl s
    | exact State.pause_kept ..
    | exact State.setOcc_kept ..

theorem State.numberResult_kept (s : State) (c : Chan) (n : Nat) : State.Kept s (s.numberResult c n) := by
  unfold State.numberResult
  dsimp only
  repeat' split
  all_goals first
    | exact .refl s
    | exact (State.setCch_kept ..).trans (State.issueResult_issued ..).kept

theorem State.clearLost_kept (s : State) (c : Chan) : State.Kept s (s.clearLost c) :=
  State.setCch_kept ..

theorem State.released_kept (s : State) (c : Chan) : State.Kept s (s.released c) := by
  unfold State.released
  dsimp only
  split
  · exact (State.setOcc_kept ..).trans (State.endStopped_kept _)
  · exact State.setOcc_kept ..

theorem State.applyJudgement_kept (s : State) (j : Judgement) : State.Kept s (s.applyJudgement j) := by
  unfold State.applyJudgement
  dsimp only
  repeat' split
  all_goals first
    | exact ((State.changeAccount_kept ..).trans (State.numberResult_kept ..)).trans
        (State.clearLost_kept ..)
    | exact (State.changeAccount_kept ..).trans (State.setOcc_kept ..)
    | exact State.changeAccount_kept ..

/-! ### The commands -/

variable {s t : State}

theorem execAdvance_kept (h : execAdvance s = .next t) : State.Kept s t := by
  rw [← next_inj h]
  split
  · exact (State.nextOrder_kept ‹_›).trans (State.cycleOrder_kept _ _ _
      (fun _ => (State.accept_kept ..).trans (State.startPhase_kept _)))
  · exact .refl s

theorem execCapture_kept (h : execCapture s = .next t) : State.Kept s t := by
  rw [← next_inj h]
  split
  · exact (State.nextOrder_kept ‹_›).trans (State.cycleOrder_kept _ _ _
      (fun _ => (State.accept_kept ..).trans (State.startPhase_kept _)))
  · exact .refl s

theorem execTurn_kept (h : execTurn s = .next t) : State.Kept s t := by
  rw [← next_inj h]
  split
  · exact (State.nextOrder_kept ‹_›).trans (State.cycleOrder_kept _ _ _
      (fun _ => State.turnOrder_kept ..))
  · exact .refl s

theorem execRetake_kept (h : execRetake s = .next t) : State.Kept s t := by
  rw [← next_inj h]
  split
  · exact (State.nextOrder_kept ‹_›).trans (State.cycleOrder_kept _ _ _
      (fun _ => State.retakeOrder_kept ..))
  · exact .refl s

theorem execStop_kept (h : execStop s = .next t) : State.Kept s t := by
  rw [← next_inj h]
  split
  · exact (State.nextOrder_kept ‹_›).trans (State.stopOrder_kept ..)
  · exact .refl s

theorem execReservationAnswer_kept {c : Chan} (h : execReservationAnswer c s = .next t) :
    State.Kept s t := by
  rw [← next_inj h]
  split
  · split
    · split
      · exact (State.nextMsg_kept ‹_›).trans (State.reserved_kept ..)
      · exact State.nextMsg_kept ‹_›
    · exact State.nextMsg_kept ‹_›
  · split
    · split
      · exact (State.nextMsg_kept ‹_›).trans (State.noRoom_kept ..)
      · exact State.nextMsg_kept ‹_›
    · exact State.nextMsg_kept ‹_›
  · exact State.nextMsg_kept ‹_›
  · exact (State.nextMsg_kept ‹_›).trans (State.released_kept ..)
  · exact .refl s

theorem execGrantReport_kept {c : Chan} (h : execGrantReport c s = .next t) : State.Kept s t := by
  rw [← next_inj h]
  split
  · split
    · split
      · split
        · exact (State.nextMsg_kept ‹_›).trans (State.pause_kept ..)
        · exact (State.nextMsg_kept ‹_›).trans
            ((State.setOcc_kept ..).trans (State.reserveOn_kept ..))
      · exact State.nextMsg_kept ‹_›
    · exact State.nextMsg_kept ‹_›
  · exact .refl s

theorem execRoomWatchExpiry_kept (h : execRoomWatchExpiry s = .next t) : State.Kept s t := by
  rw [← next_inj h]
  split
  · split
    · exact State.pause_kept ..
    · exact .refl s
  · exact .refl s

theorem execAdmissionAnswer_kept (h : execAdmissionAnswer s = .next t) : State.Kept s t := by
  rw [← next_inj h]
  split
  · split
    · exact (State.nextMsg_kept ‹_›).trans (State.admissionAnswer_kept ..)
    · exact State.nextMsg_kept ‹_›
  · exact .refl s

theorem execArmedAnswer_kept {c : Chan} (h : execArmedAnswer c s = .next t) : State.Kept s t := by
  rw [← next_inj h]
  split
  · split
    · exact (State.nextMsg_kept ‹_›).trans (State.armedAnswer_kept ..)
    · exact State.nextMsg_kept ‹_›
  · exact .refl s

theorem execFireAnswer_kept (h : execFireAnswer s = .next t) : State.Kept s t := by
  rw [← next_inj h]
  split
  · split
    · exact (State.nextMsg_kept ‹_›).trans (State.fireAnswer_kept ..)
    · exact State.nextMsg_kept ‹_›
  · exact .refl s

theorem execCancelAnswer_kept (h : execCancelAnswer s = .next t) : State.Kept s t := by
  rw [← next_inj h]
  split
  · split
    · exact (State.nextMsg_kept ‹_›).trans (State.endStopped_kept _)
    · exact State.nextMsg_kept ‹_›
  · exact .refl s

theorem execPlatenCompletion_kept (h : execPlatenCompletion s = .next t) : State.Kept s t := by
  rw [← next_inj h]
  split
  · split
    · split
      · exact (State.nextMsg_kept ‹_›).trans (State.pause_kept ..)
      · split
        · exact (State.nextMsg_kept ‹_›).trans (State.endStopped_kept _)
        · exact (State.nextMsg_kept ‹_›).trans (State.runTodo_kept ..)
    · exact State.nextMsg_kept ‹_›
  · exact .refl s

theorem execTurnCompletion_kept (h : execTurnCompletion s = .next t) : State.Kept s t := by
  rw [← next_inj h]
  split
  · split
    · exact (State.nextMsg_kept ‹_›).trans (State.turnCompletion_kept ..)
    · exact State.nextMsg_kept ‹_›
  · exact .refl s

theorem execLampFaultReport_kept (h : execLampFaultReport s = .next t) : State.Kept s t := by
  rw [← next_inj h]
  split
  · split
    · exact (State.nextMsg_kept ‹_›).trans (State.setOcc_kept ..)
    · exact State.nextMsg_kept ‹_›
  · exact .refl s

theorem execCameraFaultReport_kept {c : Chan} (h : execCameraFaultReport c s = .next t) :
    State.Kept s t := by
  rw [← next_inj h]
  split
  · exact (State.nextMsg_kept ‹_›).trans (State.cameraFault_kept _)
  · exact .refl s

theorem execJudgementTaken_kept {c : Chan} (h : execJudgementTaken c s = .next t) : State.Kept s t := by
  rw [← next_inj h]
  split
  · exact .refl s
  · rename_i j rest _
    have k : State.Kept s { s with vau := { s.vau with judgements := rest } } :=
      ⟨rfl, fun _ h => h, rfl, rfl, rfl, rfl, rfl, rfl, rfl⟩
    exact (k.trans ((State.applyJudgement_kept ..).trans (State.setOcc_kept ..))).trans
      ((State.afterJudged_kept _).trans (State.pollWait_kept _))

end Sys2Proof.Machine
end

