-- ==== Sys2Proof/Laws/Memory.lean ====
section
/-! SUPPORT. Host memory: a byte written is read back and every other byte keeps its value, and every
memory operation keeps the canonical form (log 4). -/

namespace Sys2Proof.Machine

theorem Memory.read_write_self (m : List Host.Cell) (a : Nat) (v : Byte) :
    Memory.read (Memory.write m a v) a = some v := by
  induction m with
  | nil => simp [Memory.write, Memory.read]
  | cons c m ih =>
    obtain ⟨x, b⟩ := c
    unfold Memory.write
    split
    · simp [Memory.read]
    · split
      · simp [Memory.read]
      · simp [Memory.read, *]

theorem Memory.read_write_other (m : List Host.Cell) {a x : Nat} (v : Byte) (h : x ≠ a) :
    Memory.read (Memory.write m a v) x = Memory.read m x := by
  induction m with
  | nil => simp [Memory.write, Memory.read, Ne.symm h]
  | cons c m ih =>
    obtain ⟨y, b⟩ := c
    unfold Memory.write
    split
    · simp [Memory.read, Ne.symm h]
    · split
      · next k => subst k; simp [Memory.read, Ne.symm h]
      · simp only [Memory.read, ih]

/-- A write adds its address and no other. -/
theorem Memory.mem_write {m : List Host.Cell} {a : Nat} {v : Byte} {c : Host.Cell}
    (h : c ∈ Memory.write m a v) : c.1 = a ∨ c ∈ m := by
  induction m with
  | nil => simp only [Memory.write, List.mem_singleton] at h; exact .inl (by rw [h])
  | cons d m ih =>
    obtain ⟨x, b⟩ := d
    unfold Memory.write at h
    split at h
    · simp only [List.mem_cons] at h ⊢
      obtain rfl | h := h
      · exact .inl rfl
      · exact .inr h
    · split at h
      · simp only [List.mem_cons] at h ⊢
        obtain rfl | h := h
        · exact .inl rfl
        · exact .inr (.inr h)
      · simp only [List.mem_cons] at h ⊢
        obtain h | h := h
        · exact .inr (.inl h)
        · exact (ih h).imp_right .inr

theorem Memory.write_wf {m : List Host.Cell} (h : Memory.wf m) (a : Nat) (v : Byte) :
    Memory.wf (Memory.write m a v) := by
  induction m with
  | nil => simp [Memory.write, Memory.wf]
  | cons d m ih =>
    obtain ⟨x, b⟩ := d
    simp only [Memory.wf, List.pairwise_cons] at h ih ⊢
    obtain ⟨hx, hm⟩ := h
    unfold Memory.write
    split
    · simp only [List.pairwise_cons, List.mem_cons]
      refine ⟨fun c hc => ?_, hx, hm⟩
      obtain rfl | hc := hc
      · assumption
      · exact Nat.lt_trans (by assumption) (hx c hc)
    · split
      · next k => subst k; exact List.pairwise_cons.2 ⟨hx, hm⟩
      · refine List.pairwise_cons.2 ⟨fun c hc => ?_, ih hm⟩
        obtain k | k := Memory.mem_write hc
        · rw [k]; show x < a; omega
        · exact hx c k

theorem Memory.writeBytes_wf {m : List Host.Cell} (h : Memory.wf m) (a : Nat) (b : List Byte) :
    Memory.wf (Memory.writeBytes m a b) := by
  induction b generalizing m a with
  | nil => exact h
  | cons v b ih => exact ih (Memory.write_wf h ..) _

/-- Bytes outside a write keep their values. -/
theorem Memory.read_writeBytes_other (m : List Host.Cell) (a : Nat) (b : List Byte) {x : Nat}
    (h : x < a ∨ a + b.length ≤ x) : Memory.read (Memory.writeBytes m a b) x = Memory.read m x := by
  induction b generalizing m a with
  | nil => rfl
  | cons v b ih =>
    simp only [List.length_cons] at h
    rw [Memory.writeBytes, ih _ _ (by omega), Memory.read_write_other _ _ (by omega)]

/-- Bytes inside a write hold the bytes written. -/
theorem Memory.read_writeBytes (m : List Host.Cell) (a : Nat) (b : List Byte) {i : Nat}
    (h : i < b.length) : Memory.read (Memory.writeBytes m a b) (a + i) = some b[i] := by
  induction b generalizing m a i with
  | nil => exact absurd h (Nat.not_lt_zero _)
  | cons v b ih =>
    cases i with
    | zero =>
      rw [Memory.writeBytes, Memory.read_writeBytes_other _ _ _ (by omega)]
      exact Memory.read_write_self ..
    | succ i =>
      have k := ih (Memory.write m a v) (a + 1) (i := i) (by simpa using h)
      rw [Memory.writeBytes, List.getElem_cons_succ, ← k]
      congr 1; omega

/-- The writes that land keep the canonical form. -/
theorem State.land_wf {s : State} (h : Memory.wf s.host.mem) (p : HostWrite → Bool) :
    Memory.wf (s.land p).host.mem := by
  simp only [State.land]
  generalize s.host.inFlight.filter p = l
  generalize s.host.mem = m at h
  induction l generalizing m with
  | nil => exact h
  | cons w l ih => exact ih _ (Memory.writeBytes_wf h ..)

theorem cutByte_wf {acc : List Host.Cell × Nat × Nat} (h : Memory.wf acc.1) (v : Byte) :
    Memory.wf (cutByte acc v).1 := by
  unfold cutByte
  dsimp only
  split
  · exact Memory.write_wf h ..
  · exact h

theorem cutBytes_wf (b : List Byte) {acc : List Host.Cell × Nat × Nat} (h : Memory.wf acc.1) :
    Memory.wf (b.foldl cutByte acc).1 := by
  induction b generalizing acc with
  | nil => exact h
  | cons v b ih => exact ih (cutByte_wf h v)

/-- The writes that a reset cuts keep the canonical form, whatever bytes reach host memory. -/
theorem State.cutWrites_wf {s : State} (h : Memory.wf s.host.mem) : Memory.wf s.cutWrites.host.mem := by
  simp only [State.cutWrites]
  generalize s.host.inFlight = l
  generalize s.free = n
  generalize s.host.mem = m at h
  induction l generalizing m n with
  | nil => exact h
  | cons w l ih => exact ih _ _ (cutBytes_wf w.bytes h)

theorem State.resetBlocks_mem (s : State) (e : Exp) (t : Tsq) :
    (s.resetBlocks e t).host = s.cutWrites.host := rfl

theorem State.reset_wf : Memory.wf State.reset.host.mem := List.Pairwise.nil

end Sys2Proof.Machine
end

