-- ==== Sys2Proof/Laws/Effects.lean ====
section
/-! SUPPORT. What the shared operations do, once for each: the state an operation leads to, written as
the state before with the fields it can change. -/

namespace Sys2Proof.Machine

/-- The value just set. -/
@[simp] theorem Pair.get_set {α : Type} (p : Pair α) (c : Chan) (x : α) :
    (p.set c x).get c = x := by cases c <;> rfl

/-- A value set to what it was. -/
@[simp] theorem Pair.set_get {α : Type} (p : Pair α) (c : Chan) :
    p.set c (p.get c) = p := by cases c <;> rfl

/-- The last value set stands. -/
@[simp] theorem Pair.set_set {α : Type} (p : Pair α) (c : Chan) (x y : α) :
    (p.set c x).set c y = p.set c y := by cases c <;> rfl

/-- An entry of a mapped list. -/
theorem mapFrom_get {α β : Type} (f : Nat → α → β) (k : Nat) (l : List α) (e : Nat) :
    (mapFrom f k l)[e]? = l[e]?.map (f (k + e)) := by
  induction l generalizing k e with
  | nil => simp [mapFrom]
  | cons x l ih =>
    cases e with
    | zero => simp [mapFrom]
    | succ e => simp [mapFrom, ih]; congr 1; funext a; congr 1; omega

/-- The length of a mapped list. -/
theorem mapFrom_length {α β : Type} (f : Nat → α → β) (k : Nat) (l : List α) :
    (mapFrom f k l).length = l.length := by
  induction l generalizing k with
  | nil => rfl
  | cons x l ih => simp [mapFrom, ih]

/-- Taking an order changes the orders that wait, and nothing else. -/
theorem State.nextOrder_eq {s t : State} {o : Owner} {d : Dispatched} (h : s.nextOrder o = some (d, t)) :
    t = { s with exp := { s.exp with orders := t.exp.orders } } := by
  unfold State.nextOrder at h
  cases k : takeOrder o s.exp.orders with
  | none => simp [k] at h
  | some r =>
    simp only [k, Option.map_some, Option.some.injEq, Prod.mk.injEq] at h
    obtain ⟨-, rfl⟩ := h
    rfl

/-- Taking a message changes OCC's inbox, and nothing else. -/
theorem State.nextMsg_eq {s t : State} {o : Sender} {m : OccMsg} (h : s.nextMsg o = some (m, t)) :
    t = { s with occ := { s.occ with inbox := t.occ.inbox } } := by
  unfold State.nextMsg at h
  cases k : takeMsg o s.occ.inbox with
  | none => simp [k] at h
  | some r =>
    simp only [k, Option.map_some, Option.some.injEq, Prod.mk.injEq] at h
    obtain ⟨-, rfl⟩ := h
    rfl

/-- A partial hand-over changes the notes and the banks alone (R149, R150). -/
theorem State.partialHandOverOf_eq (s : State) (c : Chan) :
    s.partialHandOverOf c = { s with
      exp := { s.exp with note := (s.partialHandOverOf c).exp.note }
      fbk := (s.partialHandOverOf c).fbk } := by
  unfold State.partialHandOverOf
  dsimp only
  split
  · split <;> rfl
  · rfl

/-- Entering a state of rest changes the volume state, the notes and the banks alone (R150). -/
theorem State.enterRest_eq (s : State) (v : VolState) :
    s.enterRest v = { s with
      exp := { s.exp with note := (s.enterRest v).exp.note }
      vau := { s.vau with vol := v }
      fbk := (s.enterRest v).fbk } := by
  unfold State.enterRest State.partialHandOver
  rw [State.partialHandOverOf_eq (State.partialHandOverOf _ _)]
  rw [State.partialHandOverOf_eq { s with vau := { s.vau with vol := v } }]

/-- Writes issued change the writes in flight, and nothing else. -/
theorem State.Issued.eq_host {s t : State} (h : State.Issued s t) :
    t = { s with host := t.host } ∧ t.host.mem = s.host.mem := by
  obtain ⟨ws, rfl⟩ := h; exact ⟨rfl, rfl⟩

/-- A change of the account: the change itself, and writes issued (R36). -/
theorem State.changeAccount_eq (s : State) (f : Vau → Vau) (b : Bool) :
    s.changeAccount f b = { s with vau := f s.vau, host := (s.changeAccount f b).host }
      ∧ (s.changeAccount f b).host.mem = s.host.mem :=
  (State.changeAccount_issued s f b).eq_host

/-- A side record replaced, and the other left. -/
theorem LedgerEntry.sideRec_setSide (x : LedgerEntry) (side other : Side) (r : SideRec) :
    (x.setSide side r).sideRec other = if other = side then r else x.sideRec other := by
  cases side <;> cases other <;> rfl

/-- What rejections of the sides `listed` make of an entry: the statuses of those that are PENDING or
SKIPPED become RETAKE_DUE, and nothing else changes (R42). -/
def RejectedEntry (listed : Side → Prop) (x y : LedgerEntry) : Prop :=
  y = { x with
      verso := { x.verso with status := y.verso.status }
      recto := { x.recto with status := y.recto.status } }
    ∧ ∀ side,
      (listed side → (y.sideRec side).status = (x.sideRec side).status.reject)
      ∧ (¬ listed side → (y.sideRec side).status = (x.sideRec side).status)

/-- A rejection repeated is the rejection. -/
theorem Status.reject_reject (st : Status) : st.reject.reject = st.reject := by cases st <;> rfl

/-- A list of rejections, entry by entry (R42). -/
theorem Vau.foldl_reject (items : List RetakeItem) (v : Vau) :
    (∃ m, items.foldl (fun v i => v.reject i.leaf i.side) v = { v with mirror := m })
    ∧ ∀ e x, v.mirror[e]? = some x →
      ∃ y, (items.foldl (fun v i => v.reject i.leaf i.side) v).mirror[e]? = some y
        ∧ RejectedEntry (fun side => ∃ r ∈ items, r.leaf = e ∧ r.side = side) x y := by
  induction items generalizing v with
  | nil => exact ⟨⟨_, rfl⟩, fun e x h => ⟨x, h, rfl, fun side => ⟨by simp, fun _ => rfl⟩⟩⟩
  | cons i items ih =>
    obtain ⟨⟨m, hm⟩, hi⟩ := ih (v.reject i.leaf i.side)
    refine ⟨⟨m, by rw [List.foldl_cons, hm]; rfl⟩, fun e x hx => ?_⟩
    have hx' : (v.reject i.leaf i.side).mirror[e]? = some (if i.leaf = e
        then x.setSide i.side { x.sideRec i.side with status := (x.sideRec i.side).status.reject }
        else x) := by
      simp [Vau.reject, Vau.mapSide, Vau.mapEntry, List.getElem?_modify, hx]
    obtain ⟨y, h1, h2, h3⟩ := hi e _ hx'
    refine ⟨y, by simpa using h1, ?_, fun side => ?_⟩
    · rw [h2]; split
      · cases i.side <;> rfl
      · rfl
    · obtain ⟨p, q⟩ := h3 side
      by_cases here : i.leaf = e ∧ i.side = side
      · obtain ⟨hl, hs⟩ := here
        rw [if_pos hl, LedgerEntry.sideRec_setSide, if_pos hs.symm] at p q
        subst hs
        refine ⟨fun _ => ?_, fun h => absurd ⟨i, by simp, hl, rfl⟩ h⟩
        by_cases again : ∃ r ∈ items, r.leaf = e ∧ r.side = i.side
        · rw [p again]; exact Status.reject_reject _
        · rw [q again]
      · have same : (if i.leaf = e
            then x.setSide i.side { x.sideRec i.side with status := (x.sideRec i.side).status.reject }
            else x).sideRec side = x.sideRec side := by
          split
          · next hl => rw [LedgerEntry.sideRec_setSide, if_neg (fun hs => here ⟨hl, hs.symm⟩)]
          · rfl
        rw [same] at p q
        have listed : (∃ r ∈ i :: items, r.leaf = e ∧ r.side = side)
            ↔ ∃ r ∈ items, r.leaf = e ∧ r.side = side := by
          simp only [List.mem_cons, exists_eq_or_imp, here, false_or]
        dsimp only
        rw [listed]
        exact ⟨p, q⟩

/-- The retake list abandoned: the listed sides are rejected, and nothing else changes but writes issued
(R68). -/
theorem State.abandonRetakes_eq (s : State) :
    ∃ m h, s.abandonRetakes = { s with
        vau := { s.vau with mirror := m }, occ := { s.occ with retakes := [] }, host := h }
      ∧ h.mem = s.host.mem
      ∧ ∀ e x, s.vau.mirror[e]? = some x → ∃ y, m[e]? = some y
          ∧ RejectedEntry (fun side => ∃ r ∈ s.occ.retakes, r.leaf = e ∧ r.side = side) x y := by
  obtain ⟨c1, c2⟩ := State.changeAccount_eq s
    (fun v => s.occ.retakes.foldl (fun v i => v.reject i.leaf i.side) v) false
  obtain ⟨⟨m, hm⟩, hr⟩ := Vau.foldl_reject s.occ.retakes s.vau
  refine ⟨m, _, ?_, c2, ?_⟩
  · unfold State.abandonRetakes; dsimp only; rw [c1, State.setOcc, ← hm]
  · rw [hm] at hr; exact hr

/-- The release of one held reservation changes that reservation, the notes and the banks alone
(R147). -/
theorem State.releaseHeldOf_eq (s : State) (c : Chan) :
    s.releaseHeldOf c = { s with
      exp := { s.exp with note := (s.releaseHeldOf c).exp.note }
      occ := { s.occ with held := s.occ.held.set c none }
      fbk := (s.releaseHeldOf c).fbk } := by
  unfold State.releaseHeldOf
  split
  · unfold State.releaseDesc
    dsimp only
    split
    · split <;> rfl
    · rfl
  · next hr =>
    have h : s.occ.held.set c none = s.occ.held := by rw [← hr, Pair.set_get]
    rw [h]

/-- The part of FBK for each channel after one channel's part is replaced. -/
theorem State.setFbk_get (s : State) (c d : Chan) (f : Fbk) :
    (s.setFbk c f).fbk.get d = if d = c then f else s.fbk.get d := by
  cases c <;> cases d <;> rfl

/-- A descriptor after one descriptor's state is replaced. -/
theorem Fbk.desc_setDesc (f : Fbk) (b b' : BankId) (i j : Fin 4) (d : DescState) :
    ((f.setDesc b i d).bank b').desc j = if b' = b ∧ j = i then d else (f.bank b').desc j := by
  have h : ((f.bank b).setDesc i d).desc j = if j = i then d else (f.bank b).desc j := by
    simp only [Bank.setDesc, Bank.desc, Vector.getElem_set, Fin.ext_iff, eq_comm]
  cases b <;> cases b' <;> simp [Fbk.setDesc, Fbk.setBank, Fbk.bank] <;> exact h

/-- A hand-over changes no descriptor (R149). -/
theorem Fbk.desc_handOver (f : Fbk) (b b' : BankId) (j : Fin 4) :
    ((f.handOver b).bank b').desc j = (f.bank b').desc j := by
  cases b <;> cases b' <;> rfl

/-- A hand-over in one event changes no descriptor of any channel (R149). -/
theorem State.handOver_desc (s : State) (c d : Chan) (b b' : BankId) (j : Fin 4) :
    (((s.handOver c b).fbk.get d).bank b').desc j = ((s.fbk.get d).bank b').desc j := by
  show (((s.setFbk c _).fbk.get d).bank b').desc j = _
  rw [State.setFbk_get]
  split
  · next h => subst h; exact Fbk.desc_handOver _ _ _ _
  · rfl

/-- A partial hand-over changes no descriptor (R149, R150). -/
theorem State.partialHandOverOf_desc (s : State) (c d : Chan) (b : BankId) (i : Fin 4) :
    (((s.partialHandOverOf c).fbk.get d).bank b).desc i = ((s.fbk.get d).bank b).desc i := by
  unfold State.partialHandOverOf
  dsimp only
  split
  · split
    · rw [State.setFbk_get]
      split
      · next h => subst h; rfl
      · rfl
    · exact State.handOver_desc _ _ _ _ _ _
  · rfl

/-- Entering a state of rest changes no descriptor (R150). -/
theorem State.enterRest_desc (s : State) (v : VolState) (d : Chan) (b : BankId) (i : Fin 4) :
    (((s.enterRest v).fbk.get d).bank b).desc i = ((s.fbk.get d).bank b).desc i := by
  unfold State.enterRest State.partialHandOver
  rw [State.partialHandOverOf_desc, State.partialHandOverOf_desc]

/-- The descriptors after a release: the RESERVED one named is FREE, every other is as before (R147). -/
theorem State.releaseDesc_desc (s : State) (c d : Chan) (b b' : BankId) (i j : Fin 4) :
    (((s.releaseDesc c b i).fbk.get d).bank b').desc j
      = if d = c ∧ b' = b ∧ j = i ∧ ((s.fbk.get c).bank b).desc i = .reserved then .free
        else ((s.fbk.get d).bank b').desc j := by
  have k : (((s.setFbk c ((s.fbk.get c).setDesc b i .free)).fbk.get d).bank b').desc j
      = if d = c ∧ b' = b ∧ j = i then .free else ((s.fbk.get d).bank b').desc j := by
    rw [State.setFbk_get]
    by_cases h : d = c
    · subst h; simp [Fbk.desc_setDesc]
    · simp [h]
  unfold State.releaseDesc
  dsimp only
  split
  · next h =>
    rw [h]
    split
    · rw [State.handOver_desc, k]; simp
    · rw [k]; simp
  · next h => simp [h]

/-- A release leaves a FREE descriptor FREE (R147). -/
theorem State.releaseDesc_free (s : State) (c d : Chan) (b b' : BankId) (i j : Fin 4)
    (h : ((s.fbk.get d).bank b').desc j = .free) :
    (((s.releaseDesc c b i).fbk.get d).bank b').desc j = .free := by
  rw [State.releaseDesc_desc]; split <;> [rfl; exact h]

/-- A RESERVED descriptor that is released is FREE (R147). -/
theorem State.releaseDesc_self (s : State) (c : Chan) (b : BankId) (i : Fin 4)
    (h : ((s.fbk.get c).bank b).desc i = .reserved) :
    (((s.releaseDesc c b i).fbk.get c).bank b).desc i = .free := by
  rw [State.releaseDesc_desc, if_pos ⟨rfl, rfl, rfl, h⟩]

/-- A release leaves the other channel alone (R147). -/
theorem State.releaseDesc_other (s : State) (c d : Chan) (b : BankId) (i : Fin 4) (h : d ≠ c) :
    (s.releaseDesc c b i).fbk.get d = s.fbk.get d := by
  unfold State.releaseDesc State.handOver
  dsimp only
  split
  · split
    · show ((State.setFbk _ c _).fbk.get d) = _
      rw [State.setFbk_get, if_neg h, State.setFbk_get, if_neg h]
    · rw [State.setFbk_get, if_neg h]
  · rfl

/-- Every reservation held goes back to FREE, and only OCC, the notes and the banks can change (R72). -/
theorem State.releaseHeld_spec (s : State) :
    (∀ c r, s.occ.held.get c = some r → ((s.fbk.get c).bank r.bank).desc r.index = .reserved →
      ((s.releaseHeld.fbk.get c).bank r.bank).desc r.index = .free)
    ∧ ∃ n f, s.releaseHeld = { s with
        exp := { s.exp with note := n }, occ := { s.occ with held := ⟨none, none⟩ }, fbk := f } := by
  constructor
  · intro c r hr hd
    unfold State.releaseHeld
    cases c with
    | left =>
      have h1 : (((s.releaseHeldOf .left).fbk.get .left).bank r.bank).desc r.index = .free := by
        simp only [State.releaseHeldOf, hr]; exact State.releaseDesc_self _ _ _ _ hd
      generalize s.releaseHeldOf .left = u at *
      simp only [State.releaseHeldOf]
      split
      · exact State.releaseDesc_free _ _ _ _ _ _ _ h1
      · exact h1
    | right =>
      have h0 : (s.releaseHeldOf .left).fbk.get .right = s.fbk.get .right := by
        simp only [State.releaseHeldOf]
        split
        · exact State.releaseDesc_other _ _ _ _ _ (by decide)
        · rfl
      have h1 : (s.releaseHeldOf .left).occ.held.get .right = some r := by
        rw [State.releaseHeldOf_eq]; exact hr
      generalize s.releaseHeldOf .left = u at *
      simp only [State.releaseHeldOf, h1]
      exact State.releaseDesc_self (State.setOcc _ _) _ _ _
        (by show ((u.fbk.get .right).bank r.bank).desc r.index = _; rw [h0]; exact hd)
  · unfold State.releaseHeld
    rw [State.releaseHeldOf_eq, State.releaseHeldOf_eq]
    exact ⟨_, _, rfl⟩

/-- An answer among the writes in flight: its slot, its code and its fields (R166). -/
def AnswerIssued (base : Word32) (slot : Fin 16) (code : AnswerCode) (fields : List FieldVal)
    (inFlight : List HostWrite) : Prop :=
  ∃ n, HostWrite.mk (.slotAnswer slot) n (base.toNat * 4096 + 128 * slot.val + 64)
    (answerBytes code fields) ∈ inFlight

/-- The DONE of every STOP is issued after the writes in flight (R76). -/
theorem answerAll_issued (l : List (Fin 16)) (s : State) :
    (∀ w ∈ s.host.inFlight, w ∈ (l.foldl (fun s i => s.answer i .done) s).host.inFlight)
    ∧ ∀ i ∈ l, AnswerIssued s.exp.base i .done []
        (l.foldl (fun s i => s.answer i .done) s).host.inFlight := by
  induction l generalizing s with
  | nil => simp
  | cons a l ih =>
    obtain ⟨h1, h2⟩ := ih (s.answer a .done)
    refine ⟨fun w hw => h1 w (by simp [State.answer, State.issue, hw]), fun i hi => ?_⟩
    rcases List.mem_cons.1 hi with rfl | hi
    · exact ⟨s.host.serial, h1 _ (by simp [State.answer, State.issue, State.slotAddr, State.area])⟩
    · exact h2 i hi

/-- What the end of an order does: its answer and those of its STOPs are issued, OCC is cleared, the
volume state entered, no descriptor changed and no note lowered (R72, R76). -/
theorem State.endOrder_spec (s : State) (o : CycleOrder) (ho : s.occ.order = some o) (code : AnswerCode)
    (fields : List FieldVal) (v : VolState) :
    ∃ n h f, s.endOrder code fields v = { s with
        exp := { s.exp with note := n }, vau := { s.vau with vol := v }, occ := s.occ.clearOrder
        fbk := f, host := h }
      ∧ (∀ c b i, ((f.get c).bank b).desc i = ((s.fbk.get c).bank b).desc i)
      ∧ (∀ k, s.exp.note.getLsbD k = true → n.getLsbD k = true)
      ∧ h.mem = s.host.mem
      ∧ AnswerIssued s.exp.base o.slot code fields h.inFlight
      ∧ ∀ i ∈ s.occ.stops, AnswerIssued s.exp.base i .done [] h.inFlight := by
  unfold State.endOrder
  simp only [ho]
  have m := answerAll_issued s.occ.stops (s.answer o.slot code fields)
  have hq : (s.answer o.slot code fields).answerStops
      = s.occ.stops.foldl (fun s i => s.answer i .done) (s.answer o.slot code fields) := rfl
  rw [← hq] at m
  obtain ⟨ws, hws⟩ := State.answerStops_issued (s.answer o.slot code fields)
  generalize (s.answer o.slot code fields).answerStops = q at *
  have hk := (State.enterRest_kept (q.setOcc q.occ.clearOrder) v).note
  refine ⟨((q.setOcc q.occ.clearOrder).enterRest v).exp.note, q.host,
    ((q.setOcc q.occ.clearOrder).enterRest v).fbk, ?_, ?_, ?_, ?_, ?_, ?_⟩
  · rw [State.enterRest_eq, hws]; rfl
  · intro c b i; rw [State.enterRest_desc, hws]; rfl
  · intro k h; apply hk k; rw [hws]; exact h
  · rw [hws]; rfl
  · exact ⟨s.host.serial, m.1 _ (by simp [State.answer, State.issue, State.slotAddr, State.area])⟩
  · exact m.2

/-- A start mark in BETWEEN changes nothing (R123). -/
theorem State.startMark_between (s : State) (c) (h : (s.cch.get c).intake = .between) : s.startMark c = s := by
  simp [State.startMark, h]

/-- After a start mark the intake is BETWEEN (R123). -/
theorem State.startMark_intake (s : State) (c) : ((s.startMark c).cch.get c).intake = .between := by
  unfold State.startMark; dsimp only; split
  · assumption
  · unfold State.endFrame; dsimp only; split
    · simp [State.setCch]
    · split <;> simp [State.setCch, State.report, State.issueResult, State.issue]
  · simp [State.setCch, Cch.send]

/-- Writes that complete elsewhere leave a byte as it was. -/
theorem State.land_read_other (s : State) (p : HostWrite → Bool) (a : Nat)
    (h : ∀ w ∈ s.host.inFlight, p w = true → a < w.addr ∨ w.addr + w.bytes.length ≤ a) :
    Memory.read (s.land p).host.mem a = Memory.read s.host.mem a := by
  have k : ∀ (l : List HostWrite) (m : List Host.Cell),
      (∀ w ∈ l, a < w.addr ∨ w.addr + w.bytes.length ≤ a) →
      Memory.read (l.foldl (fun m w => Memory.writeBytes m w.addr w.bytes) m) a = Memory.read m a := by
    intro l
    induction l with
    | nil => intros; rfl
    | cons w l ih =>
      intro m h
      rw [List.foldl_cons, ih _ (fun w hw => h w (by simp [hw]))]
      exact Memory.read_writeBytes_other _ _ _ (h w (by simp))
  apply k
  intro w hw
  rw [List.mem_filter] at hw
  exact h w hw.1 hw.2

/-- The last of the writes that complete stands in memory. -/
theorem State.land_read_last (s : State) (p : HostWrite → Bool) (b : List HostWrite) (w : HostWrite)
    (h : s.host.inFlight.filter p = b ++ [w]) (k : Nat) (hk : k < w.bytes.length) :
    Memory.read (s.land p).host.mem (w.addr + k) = w.bytes[k]? := by
  simp only [State.land, h, List.foldl_append, List.foldl_cons, List.foldl_nil]
  rw [Memory.read_writeBytes _ _ _ hk]
  simp [hk]

/-- What a GRANT write does to one channel: the named HOST banks GRANTED, and one report to OCC when a
bank became GRANTED (R144). -/
theorem State.grantOf_eq (s : State) (c : Chan) (a b : Bool) :
    s.grantOf c a b = { s with
      fbk := s.fbk.set c { s.fbk.get c with
        bankA := if a then (s.fbk.get c).bankA.grant else (s.fbk.get c).bankA
        bankB := if b then (s.fbk.get c).bankB.grant else (s.fbk.get c).bankB }
      occ := { s.occ with inbox := s.occ.inbox ++
        (if (a && !(s.fbk.get c).bankA.granted) || (b && !(s.fbk.get c).bankB.granted)
          then [OccMsg.granted c] else []) } } := by
  unfold State.grantOf
  dsimp only
  split
  · rfl
  · simp [State.setFbk]

/-- The channel holds a RESERVED descriptor. -/
theorem Fbk.hasReserved_iff (f : Fbk) : f.hasReserved = true ↔ ∃ b i, (f.bank b).desc i = .reserved := by
  simp only [Fbk.hasReserved, Bank.has, Bool.or_eq_true, List.any_eq_true, List.mem_finRange, true_and,
    beq_iff_eq]
  constructor
  · rintro (⟨i, h⟩ | ⟨i, h⟩)
    · exact ⟨.bankA, i, h⟩
    · exact ⟨.bankB, i, h⟩
  · rintro ⟨b, i, h⟩
    cases b
    · exact .inl ⟨i, h⟩
    · exact .inr ⟨i, h⟩

/-! ### CLOSE VOLUME (R50, R51) -/

/-- A reservation of a channel has not ended at FBK: a report or a release stands in its inbox (log 29). -/
theorem State.unsettled_iff (s : State) :
    (s.unsettled .left || s.unsettled .right) = true ↔ ∃ c, ∃ m ∈ (s.fbk.get c).inbox, m ≠ .reserve := by
  have h : ∀ m : FbkMsg, m.endsReservation = true ↔ m ≠ .reserve := by
    intro m
    cases m <;> simp [FbkMsg.endsReservation]
  simp only [State.unsettled, Bool.or_eq_true, List.any_eq_true, h]
  constructor
  · rintro (h | h)
    exacts [⟨_, h⟩, ⟨_, h⟩]
  · rintro ⟨c, h⟩
    cases c
    exacts [.inl h, .inr h]

/-- A take is outstanding, or its judgement has still to be taken (R50; log 12). -/
theorem State.takeOutstanding_iff (s : State) (c : Chan) : s.takeOutstanding c = true ↔
    (s.cch.get c).state = .armed ∨ (s.cch.get c).state = .exposed ∨ (s.cch.get c).state = .receiving
      ∨ ∃ j ∈ s.vau.judgements, j.chan = c := by
  unfold State.takeOutstanding
  cases (s.cch.get c).state <;> simp [ChanState.outstanding]

/-- CLOSE VOLUME is BUSY while a channel holds a take outstanding (R50). -/
theorem State.closeBusy_iff (s : State) : s.closeBusy = true ↔ ∃ c, s.takeOutstanding c = true := by
  rw [State.closeBusy, Bool.or_eq_true]
  constructor
  · rintro (h | h)
    exacts [⟨_, h⟩, ⟨_, h⟩]
  · rintro ⟨c, h⟩
    cases c
    exacts [.inl h, .inr h]

end Sys2Proof.Machine
end

