-- ==== Sys2Proof/Laws/Writes.lean ====
section
/-! SUPPORT. Writes to host memory, said once: what stands there when writes complete, the writes that a change
of the account issues, and the bytes of a record laid out by its fields. -/

namespace Sys2Proof.Machine

/-! ### Writes that complete -/

/-- A list of writes made one after the other leaves a byte that none of them covers. -/
theorem Memory.read_writes_other (l : List HostWrite) (m : List Host.Cell) (a : Nat)
    (h : ∀ w ∈ l, ¬ w.Covers a) :
    Memory.read (l.foldl (fun m w => Memory.writeBytes m w.addr w.bytes) m) a = Memory.read m a := by
  induction l generalizing m with
  | nil => rfl
  | cons w l ih =>
    rw [List.foldl_cons, ih _ (fun x hx => h x (by simp [hx]))]
    have k := h w (by simp)
    simp only [HostWrite.Covers, not_and, not_lt] at k
    exact Memory.read_writeBytes_other _ _ _ (by omega)

/-- What completion does to host memory and to the writes in flight (R36, R114, R135, R166). -/
theorem State.land_completed (s : State) (p : HostWrite → Bool) :
    s.host.Completed p (s.land p).host where
  other a h := Memory.read_writes_other _ _ _ (fun w hw => h w (List.mem_filter.1 hw).1 (List.mem_filter.1 hw).2)
  stand b w c h i hi hc := by
    simp only [State.land, h, List.foldl_append, List.foldl_cons]
    rw [Memory.read_writes_other _ _ _ hc, Memory.read_writeBytes _ _ _ hi]
    simp [hi]
  left := rfl
  serial := rfl

/-! ### Writes issued -/

/-- One write issued. -/
theorem State.issue_eq (s : State) (w : Writer) (a : Nat) (b : List Byte) :
    s.issue w a b = { s with host := s.host.issued w [(a, b)] } := rfl

/-- An answer issued (R166). -/
theorem State.answer_eq (s : State) (i : Fin 16) (code : AnswerCode) (fields : List FieldVal) :
    s.answer i code fields = { s with host := s.host.answered s.exp.base i code fields } := rfl

/-- A list mapped with its indexes, in two parts. -/
theorem mapFrom_append {α β : Type} (f : Nat → α → β) (k : Nat) (l r : List α) :
    mapFrom f k (l ++ r) = mapFrom f k l ++ mapFrom f (k + l.length) r := by
  induction l generalizing k with
  | nil => simp [mapFrom]
  | cons x l ih => simp [mapFrom, ih, Nat.add_assoc, Nat.add_comm 1]

/-- Writes issued in two parts. -/
theorem HostSide.issued_append (h : HostSide) (w : Writer) (l r : List (Nat × List Byte)) :
    (h.issued w l).issued w r = h.issued w (l ++ r) := by
  simp [HostSide.issued, mapFrom_append, Nat.add_assoc]

/-- No write issued. -/
theorem HostSide.issued_nil (h : HostSide) (w : Writer) : h.issued w [] = h := by
  simp [HostSide.issued, mapFrom]

/-- VAU's part of an entry issued (R173). -/
theorem State.writeEntry_eq (s : State) (e : Nat) (x : LedgerEntry) :
    s.writeEntry e x = { s with host := s.host.issued .vau (entryParts s.exp.base e x) } := by
  simp only [State.writeEntry, State.issue_eq, HostSide.issued_append, entryParts, State.area,
    ledgerEntryOffset, Nat.add_assoc, List.cons_append, List.nil_append]

/-- VAU's part of the header issued (R173). -/
theorem State.writeHeader_eq (s : State) :
    s.writeHeader = { s with host := s.host.issued .vau (headerParts s.exp.base s.vau) } := by
  simp only [State.writeHeader, State.issue_eq, HostSide.issued_append, headerParts, State.area,
    ledgerHeaderOffset, List.cons_append, List.nil_append]

/-- Writes issued for each item of a list. -/
theorem State.foldl_issues {α : Type} (f : State → α → State) (g : Word32 → α → List (Nat × List Byte))
    (hf : ∀ s x, f s x = { s with host := s.host.issued .vau (g s.exp.base x) }) (l : List α) (s : State) :
    l.foldl f s = { s with host := s.host.issued .vau (l.flatMap (g s.exp.base)) } := by
  induction l generalizing s with
  | nil => simp [HostSide.issued_nil]
  | cons x l ih => rw [List.foldl_cons, ih, hf]; simp [HostSide.issued_append]

/-- The changed entries of two mirrors of one length, by their indexes. -/
theorem changedFrom_eq (l r : List LedgerEntry) (k : Nat) (h : l.length = r.length) :
    changedFrom k l r = ((List.range r.length).filter (fun e => l[e]? != r[e]?)).map
      (fun e => (k + e, r.getD e .absent)) := by
  induction l generalizing r k with
  | nil => cases r <;> simp_all [changedFrom]
  | cons x l ih =>
    cases r with
    | nil => simp at h
    | cons y r =>
      have hr := ih r (k + 1) (by simpa using h)
      rw [List.length_cons, List.range_succ_eq_map, List.filter_cons, List.filter_map]
      have hf : (fun e => (x :: l)[e]? != (y :: r)[e]?) ∘ Nat.succ = fun e => l[e]? != r[e]? := by
        funext e; simp
      rw [hf]
      by_cases hxy : x = y
      · simp [changedFrom, hxy, hr]; intros; omega
      · simp [changedFrom, hxy, hr]; intros; omega

/-- The statuses of two mirrors differ in one list as in the other. -/
theorem statusesOf_inj (l r : List LedgerEntry) : statusesOf l = statusesOf r ↔
    l.map (fun x => (x.verso.status, x.recto.status)) = r.map (fun x => (x.verso.status, x.recto.status)) := by
  induction l generalizing r with
  | nil => cases r <;> simp [statusesOf, sidesOf]
  | cons x l ih =>
    cases r with
    | nil => simp [statusesOf, sidesOf]
    | cons y r =>
      have h : ∀ z : LedgerEntry, ∀ q, statusesOf (z :: q)
          = z.verso.status :: z.recto.status :: statusesOf q := by
        intro z q; simp [statusesOf, sidesOf]
      simp [h, ih, and_assoc]

/-- The header is due after a change in the cursor, the next number or a status (R37). -/
theorem headerChanged_eq (v w : Vau) : headerChanged v w = (v.cursor != w.cursor || v.nextFrame != w.nextFrame
    || v.mirror.map (fun x => (x.verso.status, x.recto.status))
      != w.mirror.map (fun x => (x.verso.status, x.recto.status))) := by
  have h : (statusesOf v.mirror != statusesOf w.mirror)
      = (v.mirror.map (fun x => (x.verso.status, x.recto.status))
        != w.mirror.map (fun x => (x.verso.status, x.recto.status))) := by
    rw [Bool.eq_iff_iff]; simp [statusesOf_inj]
  simp [headerChanged, h]

/-- The writes of a change of the account, for a mirror that keeps its length (R36, R37). -/
theorem State.commit_eq (s : State) (old : Vau) (always : Bool) (h : old.mirror.length = s.vau.mirror.length) :
    s.commit old always
      = { s with host := s.host.issued .vau (ledgerWrites s.exp.base old s.vau always) } := by
  have k := State.foldl_issues (fun s (p : Nat × LedgerEntry) => s.writeEntry p.1 p.2)
    (fun b p => entryParts b p.1 p.2) (fun s x => State.writeEntry_eq ..)
    (changedFrom 0 old.mirror s.vau.mirror) s
  have hc : (changedFrom 0 old.mirror s.vau.mirror).flatMap (fun p => entryParts s.exp.base p.1 p.2)
      = ((List.range s.vau.mirror.length).filter (fun e => old.mirror[e]? != s.vau.mirror[e]?)).flatMap
        (fun e => entryParts s.exp.base e (s.vau.entry e)) := by
    rw [changedFrom_eq _ _ _ h, List.flatMap_map]; simp [Vau.entry]
  unfold State.commit
  dsimp only
  rw [k, hc]
  unfold ledgerWrites
  rw [headerChanged_eq]
  simp only [← Bool.or_assoc]
  split
  · rw [State.writeHeader_eq]; simp [HostSide.issued_append]
  · simp

/-- A change of the account with the writes it issues, for a mirror that keeps its length (R36, R37). -/
theorem State.changeAccount_writes (s : State) (f : Vau → Vau) (always : Bool)
    (h : (f s.vau).mirror.length = s.vau.mirror.length) :
    s.changeAccount f always = { s with
      vau := f s.vau
      host := s.host.issued .vau (ledgerWrites s.exp.base s.vau (f s.vau) always) } :=
  State.commit_eq { s with vau := f s.vau } s.vau always h.symm

/-! ### Records laid out -/

theorem leBytes_length (v n : Nat) : (leBytes v n).length = n := by
  induction n generalizing v with
  | zero => rfl
  | succ n ih => simp [leBytes, ih]

/-- A field is least significant byte first (section 4.1). -/
theorem leBytes_get (v n k : Nat) (h : k < n) : (leBytes v n)[k]? = some (BitVec.ofNat 8 (v / 256 ^ k)) := by
  induction n generalizing v k with
  | zero => omega
  | succ n ih =>
    cases k with
    | zero => simp [leBytes]
    | succ k =>
      simp only [leBytes, List.getElem?_cons_succ]
      rw [ih _ _ (by omega), Nat.div_div_eq_div_mul, Nat.pow_succ, Nat.mul_comm]

theorem overlay_length (b : List Byte) (o : Nat) (c : List Byte) (h : o + c.length ≤ b.length) :
    (overlay b o c).length = b.length := by
  simp [overlay]; omega

/-- Bytes laid over a record: those of the field, and every other as before. -/
theorem overlay_get (b : List Byte) (o : Nat) (new : List Byte) (i : Nat) (h : o + new.length ≤ b.length) :
    (overlay b o new)[i]? = if o ≤ i ∧ i < o + new.length then (new[i - o]?) else b[i]? := by
  unfold overlay
  rw [List.append_assoc, List.getElem?_append]
  have ho : (b.take o).length = o := by simp; omega
  rw [ho]
  by_cases h1 : i < o
  · rw [if_pos h1, if_neg (by omega), List.getElem?_take_of_lt h1]
  · rw [if_neg h1, List.getElem?_append]
    by_cases h2 : i < o + new.length
    · rw [if_pos (by omega), if_pos (by omega)]
    · rw [if_neg (by omega), if_neg (by omega), List.getElem?_drop]
      congr 1; omega

/-- Fields within a record of n bytes, no two of which overlap. -/
def FieldsFit (n : Nat) (fields : List FieldVal) : Prop :=
  (∀ f ∈ fields, f.offset + f.width ≤ n)
  ∧ fields.Pairwise (fun f g => f.offset + f.width ≤ g.offset ∨ g.offset + g.width ≤ f.offset)

/-- The bytes of a record laid out by fields that fit (section 4.1, R173). -/
theorem layout_laidOut (n : Nat) (fields : List FieldVal) (h : FieldsFit n fields) :
    LaidOut 0 n (layout n fields) (fields.map (fun f => (f.offset, f.width, f.value))) := by
  have gen : ∀ (l : List FieldVal) (b : List Byte), b.length = n → FieldsFit n l →
      (l.foldl (fun b f => overlay b f.offset (leBytes f.value f.width)) b).length = n
      ∧ (∀ f ∈ l, ∀ k, k < f.width →
        (l.foldl (fun b f => overlay b f.offset (leBytes f.value f.width)) b)[f.offset + k]?
          = some (BitVec.ofNat 8 (f.value / 256 ^ k)))
      ∧ ∀ i, (∀ f ∈ l, i < f.offset ∨ f.offset + f.width ≤ i) →
        (l.foldl (fun b f => overlay b f.offset (leBytes f.value f.width)) b)[i]? = b[i]? := by
    intro l
    induction l with
    | nil => intro b hb _; exact ⟨hb, by simp, by simp⟩
    | cons f l ih =>
      intro b hb ⟨h1, h2⟩
      rw [List.pairwise_cons] at h2
      have hf := h1 f (by simp)
      have hlen : (overlay b f.offset (leBytes f.value f.width)).length = n := by
        rw [overlay_length] <;> simp [leBytes_length, hb, hf]
      obtain ⟨a1, a2, a3⟩ := ih _ hlen ⟨fun g hg => h1 g (by simp [hg]), h2.2⟩
      refine ⟨a1, ?_, ?_⟩
      · intro g hg k hk
        rcases List.mem_cons.1 hg with rfl | hg
        · rw [List.foldl_cons, a3 _ (fun q hq => by have := h2.1 q hq; omega),
            overlay_get _ _ _ _ (by simp [leBytes_length, hb, hf]), leBytes_length, if_pos (by omega)]
          rw [Nat.add_sub_cancel_left]; exact leBytes_get _ _ _ hk
        · exact a2 g hg k hk
      · intro i hi
        have hif := hi f (by simp)
        rw [List.foldl_cons, a3 i (fun g hg => hi g (by simp [hg])),
          overlay_get _ _ _ _ (by simp [leBytes_length, hb, hf]), leBytes_length, if_neg (by omega)]
  obtain ⟨g1, g2, g3⟩ := gen fields (List.replicate n 0) (by simp) h
  refine ⟨g1, ?_, ?_⟩
  · intro f hf k hk
    obtain ⟨g, hg, rfl⟩ := List.mem_map.1 hf
    rw [Nat.sub_zero]; exact g2 g hg k hk
  · intro i hi hf
    show (layout n fields)[i]? = _
    unfold layout
    rw [g3 i (fun g hg => by simpa using hf _ (List.mem_map.2 ⟨g, hg, rfl⟩))]
    simp [hi]

/-- The bytes of a record from an offset on. -/
theorem LaidOut.drop {n o : Nat} {b : List Byte} {fields : List (Nat × Nat × Nat)} (h : LaidOut 0 n b fields)
    (ho : ∀ f ∈ fields, o ≤ f.1) : LaidOut o (n - o) (b.drop o) fields := by
  obtain ⟨h1, h2, h3⟩ := h
  refine ⟨by simp [h1], fun f hf k hk => ?_, fun i hi hf => ?_⟩
  · rw [List.getElem?_drop, ← h2 f hf k hk]; congr 1; have := ho f hf; omega
  · rw [List.getElem?_drop]
    exact h3 _ (by omega) (fun f hf' => by have := hf f hf'; omega)

/-- The fields of a panel list fit between its side record's begin and end (Table 11-10). -/
theorem panelFields_mem {f : FieldVal} (o : Nat) (l : List Panel) (j : Nat)
    (h : f ∈ (mapFrom (fun j (p : Panel) =>
      [FieldVal.mk (o + 8 + 8 * j) 4 p.number, FieldVal.mk (o + 12 + 8 * j) 4 p.check]) j l).flatten) :
    f.width = 4 ∧ o + 8 + 8 * j ≤ f.offset ∧ f.offset + 4 ≤ o + 8 + 8 * (j + l.length) := by
  induction l generalizing j with
  | nil => simp [mapFrom] at h
  | cons p l ih =>
    simp only [mapFrom, List.flatten_cons, List.mem_append, List.mem_cons, List.not_mem_nil, or_false] at h
    rcases h with (rfl | rfl) | h
    · simp; omega
    · simp; omega
    · have := ih (j + 1) h; simp only [List.length_cons]; omega

theorem panelFields_pairwise (o : Nat) (l : List Panel) (j : Nat) :
    ((mapFrom (fun j (p : Panel) =>
      [FieldVal.mk (o + 8 + 8 * j) 4 p.number, FieldVal.mk (o + 12 + 8 * j) 4 p.check]) j l).flatten).Pairwise
      (fun f g => f.offset + f.width ≤ g.offset ∨ g.offset + g.width ≤ f.offset) := by
  induction l generalizing j with
  | nil => simp [mapFrom]
  | cons p l ih =>
    simp only [mapFrom, List.flatten_cons, List.cons_append, List.nil_append, List.pairwise_cons,
      List.mem_cons]
    refine ⟨?_, ?_, ih (j + 1)⟩
    · rintro g (rfl | hg)
      · simp; omega
      · have := panelFields_mem o l (j + 1) hg; clear ih; omega
    · intro g hg
      have := panelFields_mem o l (j + 1) hg; clear ih; omega

/-- The bytes of a ledger entry, for lists of at most eight panels (Table 11-10). -/
theorem entryBytes_laidOut (x : LedgerEntry) (hv : x.verso.panels.length ≤ 8) (hr : x.recto.panels.length ≤ 8) :
    LaidOut 0 192 (entryBytes x) (([⟨0, 1, x.kind.code⟩, ⟨1, 1, bit x.amended + 2 * bit x.uncertain⟩,
      ⟨2, 1, x.attempts⟩, ⟨3, 1, x.reading.code⟩, ⟨4, 4, x.tag⟩]
      ++ sideFields 16 x.verso ++ sideFields 88 x.recto : List FieldVal).map
        (fun f => (f.offset, f.width, f.value))) := by
  apply layout_laidOut
  have sv : ∀ f ∈ sideFields 16 x.verso, 16 ≤ f.offset ∧ f.offset + f.width ≤ 88 := by
    intro f hf
    simp only [sideFields, List.mem_append, List.mem_cons, List.not_mem_nil, or_false] at hf
    rcases hf with (rfl | rfl | rfl | rfl) | hf
    · simp
    · simp
    · simp
    · simp
    · have := panelFields_mem 16 _ 0 hf; omega
  have sr : ∀ f ∈ sideFields 88 x.recto, 88 ≤ f.offset ∧ f.offset + f.width ≤ 160 := by
    intro f hf
    simp only [sideFields, List.mem_append, List.mem_cons, List.not_mem_nil, or_false] at hf
    rcases hf with (rfl | rfl | rfl | rfl) | hf
    · simp
    · simp
    · simp
    · simp
    · have := panelFields_mem 88 _ 0 hf; omega
  have sp : ∀ o r, (sideFields o r).Pairwise
      (fun f g => f.offset + f.width ≤ g.offset ∨ g.offset + g.width ≤ f.offset) := by
    intro o r
    refine List.pairwise_append.2 ⟨by simp, panelFields_pairwise o _ 0, ?_⟩
    intro f hf g hg
    have := panelFields_mem o _ 0 hg
    simp only [List.mem_cons, List.not_mem_nil, or_false] at hf
    rcases hf with rfl | rfl | rfl | rfl <;> simp <;> omega
  constructor
  · intro f hf
    simp only [List.mem_append] at hf
    rcases hf with (hf | hf) | hf
    · simp only [List.mem_cons, List.not_mem_nil, or_false] at hf
      rcases hf with rfl | rfl | rfl | rfl | rfl <;> simp
    · have := sv f hf; omega
    · have := sr f hf; omega
  · refine List.pairwise_append.2 ⟨List.pairwise_append.2 ⟨by simp, sp _ _, ?_⟩, sp _ _, ?_⟩
    · intro f hf g hg
      have := sv g hg
      simp only [List.mem_cons, List.not_mem_nil, or_false] at hf
      rcases hf with rfl | rfl | rfl | rfl | rfl <;> simp <;> omega
    · intro f hf g hg
      have h := sr g hg
      simp only [List.mem_append] at hf
      rcases hf with hf | hf
      · simp only [List.mem_cons, List.not_mem_nil, or_false] at hf
        rcases hf with rfl | rfl | rfl | rfl | rfl <;> simp <;> omega
      · have := sv f hf; omega

/-- The bytes of an answer: the status, the code, and every field at its offset, for fields within bytes 66 to
127 of which no two overlap (Tables 11-2, 11-4). -/
theorem answerBytes_laidOut (k : AnswerCode) (fields : List FieldVal)
    (hf : ∀ f ∈ fields, 66 ≤ f.offset ∧ f.offset + f.width ≤ 128)
    (hp : fields.Pairwise (fun f g => f.offset + f.width ≤ g.offset ∨ g.offset + g.width ≤ f.offset)) :
    LaidOut 64 64 (answerBytes k fields)
      ((64, 1, 2) :: (65, 1, k.code) :: fields.map (fun f => (f.offset, f.width, f.value))) := by
  have hl : FieldsFit 64 (⟨0, 1, 2⟩ :: ⟨1, 1, k.code⟩ ::
      fields.map (fun f => { f with offset := f.offset - 64 })) := by
    constructor
    · intro g hg
      simp only [List.mem_cons, List.mem_map] at hg
      rcases hg with rfl | rfl | ⟨f, h, rfl⟩
      · simp
      · simp
      · have := hf f h; simp only; omega
    · have hm : (fields.map (fun f => { f with offset := f.offset - 64 })).Pairwise
          (fun f g => f.offset + f.width ≤ g.offset ∨ g.offset + g.width ≤ f.offset) := by
        rw [List.pairwise_map]
        refine hp.imp_of_mem fun {f g} h1 h2 h => ?_
        have := hf f h1
        have := hf g h2
        simp only; omega
      simp only [List.pairwise_cons, List.mem_cons, List.mem_map]
      refine ⟨?_, ?_, hm⟩
      · rintro g (rfl | ⟨f, h, rfl⟩)
        · simp
        · have := hf f h; simp only; omega
      · rintro g ⟨f, h, rfl⟩
        have := hf f h; simp only; omega
  obtain ⟨h1, h2, h3⟩ := layout_laidOut 64 _ hl
  refine ⟨h1, fun f h j hj => ?_, fun i hi h => h3 i hi fun g hg => ?_⟩
  · simp only [List.mem_cons, List.mem_map] at h
    rcases h with rfl | rfl | ⟨f, h, rfl⟩
    · exact h2 (0, 1, 2) (by simp) j hj
    · exact h2 (1, 1, k.code) (by simp) j hj
    · exact h2 (f.offset - 64, f.width, f.value) (by simp; exact .inr (.inr ⟨f, h, rfl, rfl, rfl⟩)) j hj
  · simp only [List.map_cons, List.map_map, List.mem_cons, List.mem_map] at hg
    rcases hg with rfl | rfl | ⟨f, hm, rfl⟩
    · have := h (64, 1, 2) (by simp); simp only at this ⊢; omega
    · have := h (65, 1, k.code) (by simp); simp only at this ⊢; omega
    · have := h (f.offset, f.width, f.value) (by simp; exact .inr (.inr ⟨f, hm, rfl, rfl, rfl⟩))
      have := hf f hm
      simp only [Function.comp] at *; omega

/-! ### The end of an order (R68, R72, R76) -/

/-- The writes of the abandoned retake list: the changed entries, then the header (R36, R37, R68). -/
theorem State.abandonRetakes_writes (s : State) : ∃ m, s.abandonRetakes = { s with
    vau := { s.vau with mirror := m }, occ := { s.occ with retakes := [] }
    host := s.host.issued .vau (ledgerWrites s.exp.base s.vau { s.vau with mirror := m } false) } := by
  obtain ⟨⟨m, hm⟩, -⟩ := Vau.foldl_reject s.occ.retakes s.vau
  have hl : (s.occ.retakes.foldl (fun v i => v.reject i.leaf i.side) s.vau).mirror.length
      = s.vau.mirror.length := by
    generalize s.vau = v
    induction s.occ.retakes generalizing v with
    | nil => rfl
    | cons i l ih => rw [List.foldl_cons, ih]; simp [Vau.reject, Vau.mapSide, Vau.mapEntry]
  refine ⟨m, ?_⟩
  unfold State.abandonRetakes
  dsimp only
  rw [State.changeAccount_writes _ _ _ hl, hm]
  rfl

/-- DONE to every STOP of a list, one answer each (R76). -/
theorem answerAll_eq (l : List (Fin 16)) (s : State) : l.foldl (fun s i => s.answer i .done) s
    = { s with host := l.foldl (fun h i => h.answered s.exp.base i .done []) s.host } := by
  induction l generalizing s with
  | nil => rfl
  | cons i l ih => rw [List.foldl_cons, ih]; rfl

/-- What the entry into a state of rest does to a channel's banks and to the notes rests on these alone (R150). -/
theorem State.partialHandOverOf_banks (s t : State) (c : Chan) (hf : t.fbk = s.fbk)
    (hn : t.exp.note = s.exp.note) : (t.partialHandOverOf c).fbk = (s.partialHandOverOf c).fbk
      ∧ (t.partialHandOverOf c).exp.note = (s.partialHandOverOf c).exp.note := by
  unfold State.partialHandOverOf
  dsimp only
  rw [hf]
  split
  · split
    · exact ⟨by simp [State.setFbk, hf], hn⟩
    · exact ⟨by simp [State.handOver, State.setFbk, State.raise, hf],
        by simp [State.handOver, State.setFbk, State.raise, Exp.raise, hn]⟩
  · exact ⟨hf, hn⟩

/-- What the entry into a state of rest does to the banks and the notes rests on these alone (R150). -/
theorem State.enterRest_banks (s t : State) (v : VolState) (hf : t.fbk = s.fbk)
    (hn : t.exp.note = s.exp.note) : (t.enterRest v).fbk = (s.enterRest v).fbk
      ∧ (t.enterRest v).exp.note = (s.enterRest v).exp.note := by
  unfold State.enterRest State.partialHandOver
  have h := State.partialHandOverOf_banks { s with vau := { s.vau with vol := v } }
    { t with vau := { t.vau with vol := v } } .left hf hn
  exact State.partialHandOverOf_banks _ _ .right h.1 h.2

/-- What the return of a descriptor does to the banks and the notes rests on these alone (R147, R150). -/
theorem State.releaseDesc_banks (s t : State) (c : Chan) (b : BankId) (i : Fin 4) (hf : t.fbk = s.fbk)
    (hn : t.exp.note = s.exp.note) : (t.releaseDesc c b i).fbk = (s.releaseDesc c b i).fbk
      ∧ (t.releaseDesc c b i).exp.note = (s.releaseDesc c b i).exp.note := by
  unfold State.releaseDesc
  dsimp only
  rw [hf]
  split
  · split
    · exact ⟨by simp [State.handOver, State.setFbk, State.raise, hf],
        by simp [State.handOver, State.setFbk, State.raise, Exp.raise, hn]⟩
    · exact ⟨by simp [State.setFbk, hf], hn⟩
  · exact ⟨hf, hn⟩

/-- The end of an order, whole: its answer and those of its STOPs issued, OCC cleared, and the banks and notes
as the entry into the volume state leaves them (R72, R76, R150). -/
theorem State.endOrder_eq (s : State) (o : CycleOrder) (ho : s.occ.order = some o) (code : AnswerCode)
    (fields : List FieldVal) (v : VolState) :
    s.endOrder code fields v = { s with
      exp := { s.exp with note := (s.enterRest v).exp.note }
      vau := { s.vau with vol := v }, occ := s.occ.clearOrder, fbk := (s.enterRest v).fbk
      host := s.occ.stops.foldl (fun h i => h.answered s.exp.base i .done [])
        (s.host.answered s.exp.base o.slot code fields) } := by
  have hq : (s.answer o.slot code fields).answerStops = { s with
      host := s.occ.stops.foldl (fun h i => h.answered s.exp.base i .done [])
        (s.host.answered s.exp.base o.slot code fields) } := by
    unfold State.answerStops
    rw [answerAll_eq]
    rfl
  unfold State.endOrder
  simp only [ho]
  rw [hq]
  generalize s.occ.stops.foldl (fun h i => h.answered s.exp.base i .done [])
    (s.host.answered s.exp.base o.slot code fields) = k
  have hb := State.enterRest_banks s (State.setOcc { s with host := k } s.occ.clearOrder) v rfl rfl
  rw [State.enterRest_eq, hb.1, hb.2]
  rfl

end Sys2Proof.Machine
end

