-- ==== Sys2Proof/WellFormed.lean ====
section
/-! DEFINITION. Which commands are well formed: the operand lengths of the records read (chapter 11),
the SIDEBAND length of R153, and the register-write rows that name one kind of write (R171, R174).
No meaning rests on these checks: a shorter record counts as padded with zeros (log 3). -/

namespace Sys2Proof

/-- The bits of each register that Table 11-14 names, of those a write reaches. -/
def Reg.namedBits : Reg → Word32
  | .control => 3
  | .status => 0
  | .base => 0xFFFFFFFF
  | .post => 0xFFFF
  | .answered => 0xFFFF
  | .note => 0x7F
  | .noteMask => 0x7F
  | .grant => 0xF

/-- A command whose operands have the form the spec gives them. -/
def Instr.wellFormed : Instr → Bool
  | .controlEnable v => !v.getLsbD 1
  | .slotReadComplete b => b.length == 128
  | .registerWriteIgnored r v => r == .status || v &&& r.namedBits == 0
  | .tableImagesRead b => b.length == 2048
  | .sheetHeaderRead b => b.length == 256
  | .planRead e c => e.length % 16 == 0 && e.length ≤ 16384 && c.length == 256
  | .ledgerReadComplete h e => h.length == 256 && e.length % 192 == 0 && e.length ≤ 196608
  | .sideband _ _ p _ => p.length ≤ 24
  | .sidebandMalformed _ _ n => 24 < n.toNat
  | .descriptorReadComplete _ b => b.length == 64
  | _ => true

end Sys2Proof
end

