-- ==== Sys2Proof/Tests/Slice0.lean ====
section
/-! SUPPORT. Tests: ill-formed commands, the manual's worked figures, one or two steps of each command on
a small state, and for each statement with hypotheses a state and operands that meet them. The expected
results are the manual's, from the rule or the example each test names. -/

set_option Elab.async false

open Sys2Proof Sys2Proof.Machine

namespace Sys2Proof.Tests

/-! ### Small states -/

/-- The state a command leaves. -/
def run (c : Instr) (s : State) : State :=
  match exec c s with
  | .next t => t
  | _ => s

/-- The profile of the worked case of section 6.9, for every kind that it needs. -/
def kindParams : KindParams := ⟨2000000, [200, 200, 200, 200], 40000, 3⟩

def profile : Profile := { Profile.zero with
  board := kindParams, text := kindParams, foldout := kindParams
  budget := 20000, tMin := 20000, reserve := 8, doseMode := .withhold, attemptLimit := 2
  retryClass := 3, platenClass := 4, armClass := 5, liftClass := 6, frameClass := 7, roomClass := 11
  stallAction := .hold, cutCode := 2, pressureLimit := 500, autoLimit := 1, wait := true, gate := 2
  minFocus := 900 }

/-- Front board, two leaves of text, a foldout of two panels, back board. -/
def plan : List PlanEntry :=
  [⟨.board, 1, 70⟩, ⟨.text, 1, 71⟩, ⟨.text, 1, 72⟩, ⟨.foldout, 2, 73⟩, ⟨.board, 1, 74⟩]

/-- A fresh volume, READY at cursor 1, arm PARKED, platen DOWN. -/
def ready : State := { State.reset with
  pfs := { Pfs.reset with
    loaded := true, profiles := [profile]
    cradle := { Cradle.zero with calibration := [12000, 12000, 12000, 12000], spill := 32 } }
  vau := { Vau.reset with
    vol := .ready, plan := plan, key := 5, profile := some 0, cursor := 1, nextFrame := 1
    mirror := freshMirror plan }
  occ := { Occ.reset with auto := List.replicate 5 (0, 0) }
  tsq := { Tsq.reset with arm := .parked, platen := .down, parkSw := true, downSw := true }
  ldu := { Ldu.reset with sideDose := List.replicate 5 (0, 0) } }

/-- A state with another volume state. -/
def at' (v : VolState) (s : State := ready) : State := { s with vau := { s.vau with vol := v } }

/-- One order dispatched from slot 3. -/
def ordered (o : Order) (s : State := ready) : State := { s with exp := { s.exp with orders := [⟨3, o⟩] } }

/-- One message at OCC. -/
def told (m : OccMsg) (s : State) : State := { s with occ := { s.occ with inbox := [m] } }

/-- A cycle order in flight from slot 2, with OCC's work. -/
def cycling (k : CycleKind) (w : Work) (s : State := ready) : State :=
  { at' .cycling s with occ := { s.occ with order := some ⟨2, k⟩, work := w } }

/-- Both pages of the opening. -/
def both : Exposure := ⟨⟨true, true⟩, .normal, false, false, false⟩

/-- A reserved descriptor of capacity 64. -/
def desc : Reservation := ⟨.bankA, 0, 8192, 64⟩

/-- The sequencer in a stage of the turn from 1 to 2. -/
def turning (g : Stage) (s : State := ready) : State := { s with tsq := { s.tsq with
  work := .turn 1 2, stage := some g, attempts := 1, arm := .moving, platen := .up
  stageWatch := if g = .waitDark then none else some 5 } }

/-- The light unit with an exposure of both sides. -/
def exposing (st : ExpState) (s : State := ready) : State := { s with ldu := { s.ldu with
  state := st, bankLit := st == .lit
  record := some ⟨⟨true, true⟩, .normal, 0xF, 1, 2, 40000, false, 847120, 847120, 0xF, false, false⟩ } }

def lit : State := exposing .lit

/-- One request at the light unit, and one at the sequencer. -/
def toLight (m : LduMsg) (s : State) : State := { s with ldu := { s.ldu with inbox := [m] } }
def toTurn (m : TsqMsg) (s : State) : State := { s with tsq := { s.tsq with inbox := [m] } }

def notice (k : NoticeKind) : Notice := ⟨k, 40000, false, false, 847120⟩

/-- The LEFT channel with its first take, of verso 1. -/
def taking (st : ChanState) (k : NoticeKind) (i : Intake) : State := ready.setCch .left { Cch.reset with
  state := st, takeId := 1, syncPending := false, intake := i, frameWatch := some 7
  take := some ⟨desc, 1, .verso, 1, 71, 5, some (notice k), none⟩ }

/-- The side-band slot of section 9.4.1 after its first message. -/
def focus : SbSlot := { SbSlot.reset with
  type := 17, valid := true, received := true, length := 2
  payload := [0xE2, 0x04] ++ List.replicate 22 0 }

/-- The LEFT channel with that slot at number 1, the gate slot of `profile`. -/
def focused (s : State) : State := s.setCch .left ((s.cch.get .left).mapSlots
  (fun k b => if k = 1 then focus else b))

/-- The LEFT channel's banks: bank A GRANTED, its first descriptor in a state. -/
def granted (d : DescState) (s : State := ready) : State :=
  s.setFbk .left { Fbk.reset with bankA := ⟨true, #v[d, .free, .free, .free]⟩ }

/-- A write in flight. -/
def writing (w : Writer) (s : State) : State := s.issue w 100 [7]

/-! ### Ill-formed commands, one for each check of WellFormed -/

theorem test_ill_control : (Instr.controlEnable 2).wellFormed = false := by decide +kernel
theorem test_ill_slot_read : (Instr.slotReadComplete [1]).wellFormed = false := by decide +kernel
theorem test_ill_ignored : (Instr.registerWriteIgnored .post 1).wellFormed = false := by decide +kernel
theorem test_ill_images : (Instr.tableImagesRead []).wellFormed = false := by decide +kernel
theorem test_ill_sheet : (Instr.sheetHeaderRead [0]).wellFormed = false := by decide +kernel
theorem test_ill_plan_entries :
    (Instr.planRead [1] (List.replicate 256 0)).wellFormed = false := by decide +kernel
theorem test_ill_close_record : (Instr.planRead [] []).wellFormed = false := by decide +kernel
theorem test_ill_ledger_header : (Instr.ledgerReadComplete [] []).wellFormed = false := by decide +kernel
theorem test_ill_sideband :
    (Instr.sideband .left 17 (List.replicate 25 0) 0).wellFormed = false := by decide +kernel
theorem test_ill_malformed : (Instr.sidebandMalformed .left 17 24).wellFormed = false := by decide +kernel
theorem test_ill_descriptor : (Instr.descriptorReadComplete .left []).wellFormed = false := by decide +kernel
theorem test_well_formed_ignored : (Instr.registerWriteIgnored .post 0x10000).wellFormed = true := by decide +kernel

/-! ### Worked figures of the manual -/

/-- R54: the ASCII bytes 1 to 9 give CBF43926h. -/
theorem test_crc_digits :
    crc [0x31, 0x32, 0x33, 0x34, 0x35, 0x36, 0x37, 0x38, 0x39] = 0xCBF43926 := by decide +kernel
/-- R54: the empty sequence gives 0. -/
theorem test_crc_empty : crc [] = 0 := by decide +kernel

/-- The class table of the example in chapter 1. -/
def classes : Pfs := { Pfs.reset with
  classes := [⟨true, 10000, 19999, 2⟩, ⟨true, 15000, 15999, 5⟩, ⟨false, 0, 4294967295, 7⟩,
    ⟨true, 20000, 20000, 1⟩]
  cradle := { Cradle.zero with defaultEnable := true, defaultProfile := 0 } }

theorem test_class_lookup : classes.lookup 15500 = some 2 ∧ classes.lookup 19999 = some 2
    ∧ classes.lookup 20000 = some 1 ∧ classes.lookup 20001 = some 0 ∧ classes.lookup 5 = some 0 := by decide +kernel

/-- R10: granules of class 9 and 11 are 256 ms and 1,024 ms, and the fourth tick after 0 of a granule of 256
is at 1,024. -/
theorem test_watch_classes : granule 9 = 256 ∧ granule 11 = 1024 ∧ expiryMoment 256 0 = 1024
    ∧ expiryMoment 256 255 = 1024 ∧ cutDelay 0 = 16 := by decide +kernel

/-- Section 6.9.1. -/
theorem test_dose_two_sides :
    ready.doseCase ⟨true, true⟩ .normal
      = ⟨21178, 21178, ⟨some 94437, some 94437, some 423080⟩, 40000, 40000⟩
    ∧ pageCharge 21178 40000 = 847120 := by decide +kernel

/-- The accounts of section 6.9.2. -/
def nearCap : State := { ready with ldu := { ready.ldu with
  sideDose := [(0, 0), (1500000, 0), (0, 847120), (0, 0), (0, 0)], volDose := 6000000 } }

theorem test_dose_near_cap :
    nearCap.doseCase ⟨true, false⟩ .retake
      = ⟨18824, 2354, ⟨some 26561, some 489753, some 683728⟩, 40000, 26561⟩
    ∧ pageCharge 18824 26561 = 499985 ∧ pageCharge 2354 26561 = 62525 := by decide +kernel

/-- Section 6.9.3: the LEFT page ends 15 du below its cap. -/
def exhausted : State := { ready with ldu := { ready.ldu with
  sideDose := [(0, 0), (1999985, 0), (0, 909645), (0, 0), (0, 0)], volDose := 6562510 } }

theorem test_dose_exhausted :
    (exhausted.doseCase ⟨true, false⟩ .retake).time = 0
    ∧ (exhausted.doseCase ⟨false, true⟩ .normal).time = 6
    ∧ (exhausted.doseCase ⟨false, true⟩ .normal).bounds.shortest = .sideLeft := by decide +kernel

/-- Section 9.2: the messages of type 17 with their check bytes. -/
theorem test_sideband_checks : sidebandCheck 0x11 [0xE2, 0x04] 0x07 = true
    ∧ sidebandCheck 0x11 [0x52, 0x03] 0x98 = true ∧ focus.score = 1250 := by decide +kernel

/-- R53: the closing sum takes a panel record least significant byte first. -/
theorem test_panel_bytes :
    leBytes 5 4 ++ leBytes 0x0A1B2C3D 4 = [5, 0, 0, 0, 0x3D, 0x2C, 0x1B, 0x0A] := by decide +kernel

/-! ### One step of each command -/

/-- A reset in READY with a DEAD arm and the vacuum ON. -/
def dead : State := { ready with tsq := { ready.tsq with arm := .dead, relayOpen := true, vacuum := .on } }

theorem test_power_on_reset : (run (.powerOnReset true false true) dead).tsq.arm = .parked
    ∧ (run (.powerOnReset true false true) dead).tsq.platen = .down := by decide +kernel
theorem test_control_reset : (run (.controlReset true) dead).tsq.arm = .dead
    ∧ (run (.controlReset true) dead).tsq.vacuum = .heldAfterReset
    ∧ (run (.controlReset true) dead).exp.enable = false := by decide +kernel

/-- Slot 0 PENDING, ENABLE 0. -/
def posted : State := run (.post 1) ready

theorem test_post : posted.exp.queue = [0] ∧ posted.exp.slot 0 = .pending
    ∧ (run (.post 3) posted).exp.queue = [0, 1]
    ∧ (run (.post 3) posted).exp.note = 0x20 := by decide +kernel
theorem test_control_enable : (run (.controlEnable 1) posted).exp.take = some 0
    ∧ (run (.controlEnable 1) posted).exp.slot 0 = .taken := by decide +kernel

/-- The take of slot 0 in progress. -/
def takingSlot : State := run (.controlEnable 1) posted

theorem test_slot_read : (run (.slotReadComplete (6 :: 0 :: 0 :: 0 :: 0 :: [4])) takingSlot).exp.orders
      = [⟨0, .advance 1024⟩] := by decide +kernel
theorem test_slot_read_bad : (run (.slotReadComplete [6]) takingSlot).hasInFlight (.slotAnswer 0) = true
    ∧ (run (.slotReadComplete [6]) takingSlot).exp.orders = [] := by decide +kernel

/-- Slot 0 ANSWERED. -/
def answered : State := run (.answerWriteComplete 0) (run (.slotReadComplete [6]) takingSlot)

theorem test_answer_write : answered.exp.slot 0 = .answered ∧ answered.exp.note = 1
    ∧ Memory.read answered.host.mem 64 = some 2 ∧ Memory.read answered.host.mem 65 = some 2 := by
  decide +kernel
theorem test_ack : (run (.ack 1) answered).exp.slot 0 = .free
    ∧ (run (.ack 1) answered).exp.note = 1 := by decide +kernel
theorem test_note_clear : (run (.noteClear 1) answered).exp.note = 0 := by decide +kernel
theorem test_note_mask : (run (.noteMaskWrite 0xFF) answered).exp.noteMask = 0x7F
    ∧ (run (.noteMaskWrite 1) answered).exp.int = true := by decide +kernel
theorem test_base_write : (run (.baseWrite 9) State.reset).exp.base = 9
    ∧ (run (.baseWrite 9) ready).exp.baseRefused = true := by decide +kernel
theorem test_grant : (run (.grant 0x9) ready).readRegister .grant = 9 := by decide +kernel
theorem test_ignored_write : (run (.registerWriteIgnored .status 7) ready) = ready := by decide +kernel

theorem test_load_tables : (run .loadTables (ordered .loadTables State.reset)).pfs.job
      = some (.reading 3) := by decide +kernel
/-- An image of zeros fails at profile 0: every class entry is not valid and passes. -/
theorem test_images_bad : tableFailure [] = some (.profile, 0) := by decide +kernel
theorem test_slots_clear : (run (.sidebandSlotsClear .left)
      { focused State.reset with pfs := { Pfs.reset with
        job := some (.clearing 3 ⟨true, true⟩)
        cradle := { Cradle.zero with slotConfig := ⟨⟨[0, 17, 0, 0], [false, true, false, false]⟩, .zero⟩ } }
      }).cch.left.slot 1 = { SbSlot.reset with type := 17, storeOnError := true } := by decide +kernel

theorem test_open_volume : (run .openVolume (ordered .openVolume State.reset)).vau.openJob
      = some ⟨3, .header⟩ := by decide +kernel
/-- A sheet of three entries. -/
def sheet : List Byte := List.replicate 38 0 ++ [3]
def opening (p : OpenPhase) (s : State) : State := { s with vau := { s.vau with openJob := some ⟨3, p⟩ } }
theorem test_sheet_header : (run (.sheetHeaderRead sheet) (opening .header State.reset)).vau.openJob
      = some ⟨3, .plan (parseHeader sheet)⟩ := by decide +kernel
/-- BOARD, TEXT, BOARD, one panel each. -/
def entries : List Byte := [1, 1] ++ List.replicate 14 0 ++ [2, 1] ++ List.replicate 14 0 ++ [1, 1]
/-- LOADED tables whose default is profile 0, and OPEN VOLUME waiting for the plan. -/
def planning : State := opening (.plan (parseHeader sheet)) { State.reset with
  pfs := { ready.pfs with cradle := { ready.pfs.cradle with defaultEnable := true } } }
theorem test_plan_read : (run (.planRead entries []) planning).vau.vol = .opening
    ∧ (run (.planRead entries []) planning).vau.mirror.map (fun e => (e.verso.status, e.recto.status))
      = [(.pending, .exempt), (.pending, .pending), (.exempt, .pending)] := by decide +kernel
theorem test_plan_read_bad : (run (.planRead [2] []) planning).vau.vol = .noVolume
    ∧ (run (.planRead [2] []) planning).hasInFlight (.slotAnswer 3) = true := by decide +kernel
theorem test_ledger_read : (run (.ledgerReadComplete [0, 0, 0, 0, 0, 0, 0, 0, 2, 0, 0, 0, 9] [])
      (opening .ledger (at' .opening))).vau.cursor = 2
    ∧ (run (.ledgerReadComplete [0, 0, 0, 0, 0, 0, 0, 0, 2, 0, 0, 0, 9] [])
      (opening .ledger (at' .opening))).vau.nextFrame = 9 := by decide +kernel
theorem test_opening_writes : (run .openingWritesComplete (opening (.writes 7) (at' .opening))).vau.vol = .ready
    ∧ (run .openingWritesComplete (opening (.writes 7) (at' .opening))).ldu.volDose = 7 := by decide +kernel
theorem test_amend : ((run .amend (ordered (.amend 3 2))).vau.plan.map (·.kind))
      = [.board, .text, .text, .text, .board] := by decide +kernel
theorem test_amend_writes : (run .amendWritesComplete (run .amend (ordered (.amend 3 2)))).hasInFlight
      (.slotAnswer 3) = true := by decide +kernel

/-- HAND_WAIT after a double lift of entry 2. -/
def waiting (r : Reason := .doubleLift) : State :=
  { at' .handWait with vau := { (at' .handWait).vau with step := some ⟨r, 2⟩ } }
theorem test_hand_done : (run .handDone (ordered (.handDone 2 2) waiting)).vau.cursor = 2
    ∧ (run .handDone (ordered (.handDone 2 2) waiting)).vau.vol = .ready := by decide +kernel
theorem test_hand_done_writes : (run .handDoneWritesComplete
      (run .handDone (ordered (.handDone 2 2) waiting))).vau.handJobs = [] := by decide +kernel
theorem test_close_volume : (run .closeVolume (ordered (.closeVolume true))).vau.vol = .closing
    ∧ (run .closeVolume (ordered (.closeVolume false))).vau.vol = .ready := by decide +kernel
theorem test_closing_write : ((run .closingWriteComplete
      (run .closeVolume (ordered (.closeVolume true)))).vau.closeJob.map (·.step)) = some 2 := by decide +kernel

theorem test_advance : (run .advance (ordered (.advance 2))).occ.work = .reserving both .left := by
  decide +kernel
theorem test_capture : (run .capture (ordered .capture)).vau.vol = .cycling := by decide +kernel
theorem test_turn : (run .turn (ordered .turn)).tsq.inbox = [.turn 1] := by decide +kernel
theorem test_retake : (run .retake (ordered (.retake 1 .verso 1))).occ.work
      = .reserving ⟨⟨true, false⟩, .retake, false, false, true⟩ .left := by decide +kernel
theorem test_stop : (run .stop (ordered .stop (cycling .capture (.firing both)))).ldu.inbox = [.abort] := by
  decide +kernel
theorem test_reservation_answer : (run (.reservationAnswer .left)
      (told (.reserved .left desc) (cycling .capture (.reserving both .left)))).occ.work
      = .reserving both .right := by decide +kernel
theorem test_grant_report : (run (.grantReport .left)
      (told (.granted .left) (cycling .capture (.roomWait both .left)))).occ.work = .reserving both .left := by
  decide +kernel
/-- A room wait with its watch running. -/
def roomWait : State :=
  { cycling .capture (.roomWait both .left) with
    occ := { (cycling .capture (.roomWait both .left)).occ with roomWatch := some 11 } }
theorem test_room_watch : (run .roomWatchExpiry roomWait).vau.vol = .ready := by decide +kernel
theorem test_admission_answer : (run .admissionAnswer
      (told (.admission (.admitted 40000 false)) (cycling .capture (.admitting both)))).occ.work
      = .arming both ⟨false, false⟩ ⟨false, false⟩ := by decide +kernel
theorem test_armed_answer : (run (.armedAnswer .right)
      (told (.armed .right true) (cycling .capture (.arming both ⟨true, false⟩ ⟨true, false⟩)))).ldu.inbox
      = [.fire] := by decide +kernel
theorem test_fire_answer : (run .fireAnswer
      (told (.fire .notReady) (cycling .capture (.firing both)))).vau.vol = .ready := by decide +kernel
/-- A CAPTURE being stopped, from slot 9. -/
def stopping (w : Work) : State :=
  { cycling .capture w with occ := { (cycling .capture w).occ with stops := [9] } }
/-- A stopped order that waits for FBK's answer to a release. -/
def releasing : State := { stopping .releasing with
  occ := { (stopping .releasing).occ with releasing := ⟨true, false⟩ } }
theorem test_release_awaited : (run .cancelAnswer (told .done { releasing with
      occ := { releasing.occ with work := .cancelling } })).occ.work = .releasing
    ∧ (run (.reservationAnswer .left) (told (.released .left) releasing)).vau.vol = .ready := by decide +kernel
/-- R11, R75: a STOP in the room wait stops the room watch, also while a release is unanswered. -/
theorem test_stop_room_watch : (run .stop (ordered .stop { roomWait with
      occ := { roomWait.occ with releasing := ⟨true, false⟩ } })).occ.roomWatch = none := by decide +kernel
theorem test_cancel_answer : (run .cancelAnswer (told .done (stopping .cancelling))).vau.vol = .ready := by
  decide +kernel
theorem test_platen_completion : (run .platenCompletion
      (told (.platen false) (cycling .capture .platen))).vau.step = some ⟨.stall, 2⟩ := by decide +kernel
theorem test_turn_completion : (run .turnCompletion
      (told (.turn (.turned 2)) (cycling .turn .turning))).vau.cursor = 2
    ∧ (run .turnCompletion (told (.turn (.failed .leafDropped 2)) (cycling .turn .turning))).vau.step
      = some ⟨.leafDropped, 2⟩ := by decide +kernel
theorem test_lamp_fault : (run .lampFaultReport
      (told .lampFault (cycling .turn .turning))).occ.pendingPause = some .lampFault := by decide +kernel
theorem test_camera_fault : (run (.cameraFaultReport .left)
      (told (.faulted .left) roomWait)).vau.vol = .ready := by decide +kernel
/-- A judgement of verso 1 reported by the LEFT channel. -/
def judged (o : Outcome) (s : State := ready) : State :=
  { s with vau := { s.vau with judgements := [⟨.left, 1, .verso, 1, o, 77, false, false, false, false⟩] } }
/-- R63: the wait for a channel ends with its LOST take, before VAU has taken the judgement. -/
theorem test_wait_ends : (run (.frameWatchExpiry .left)
      (cycling .capture (.channelWait ⟨⟨true, false⟩, .normal, false, false, false⟩)
        (taking .exposed .exposed .between))).occ.work
      = .reserving ⟨⟨true, false⟩, .normal, false, false, false⟩ .left := by decide +kernel
/-- R137: a report made before the order was accepted has no effect on it. -/
theorem test_stale_report : (run .turn (told (.faulted .left) (ordered .turn))).occ.inbox = [] := by decide +kernel
/-- R67: the judgement of an earlier take is late from the fire request on. -/
theorem test_fire_passes : (run (.armedAnswer .right) (told (.armed .right true)
      (cycling .capture (.arming both ⟨true, false⟩ ⟨true, false⟩) (judged .soft)))).vau.judgements.map (·.late)
      = [true] := by decide +kernel
theorem test_judgement : ((run (.judgementTaken .left) (judged .accepted)).vau.sideRec 1 .verso)
      = ⟨.captured, 1, 0, [⟨1, 77⟩]⟩
    ∧ ((run (.judgementTaken .left) (judged .soft)).vau.sideRec 1 .verso).status = .retakeDue := by
  decide +kernel

theorem test_admission : (run .admissionRequest (toLight (.request ⟨true, true⟩ .normal) ready)).ldu.volDose
      = 1694240 := by decide +kernel
theorem test_admission_withheld : (run .admissionRequest
      (toLight (.request ⟨true, false⟩ .retake) exhausted)).occ.inbox
      = [.admission (.withheld .left .sideLeft)] := by decide +kernel
theorem test_charge_writes : (run .chargeWritesComplete (exposing .charging)).occ.inbox
      = [.admission (.admitted 40000 false)] := by decide +kernel
theorem test_abandon : (run .abandonRequest (toLight .abandon (exposing .charging))).ldu.abandoned = true := by
  decide +kernel
theorem test_fire : (run .fireRequest (toLight .fire (exposing .admitted))).ldu.bankLit = true := by
  decide +kernel
theorem test_fire_not_ready : (run .fireRequest
      (toLight .fire (turning .reach (exposing .admitted)))).occ.inbox = [.fire .notReady] := by decide +kernel
theorem test_strobe_end : (run .strobeEnd lit).cch.left.notices = [notice .exposed] := by decide +kernel
theorem test_cancel : (run .cancelRequest (toLight (.cancel ⟨true, false⟩) (exposing .admitted))).cch.left.notices
      = [notice .cut] := by decide +kernel
theorem test_abort : (run .abortRequest (toLight .abort lit)).occ.inbox = [.fire .aborted] := by decide +kernel
theorem test_interlock_fall : (run .interlockFall
      { lit with ldu := { lit.ldu with fall := true } }).occ.inbox = [.fire .notReady] := by decide +kernel
/-- Every level of `profile` is 200. -/
theorem test_bank_drive : lit.bankDrive 2 = 200 ∧ ready.bankDrive 2 = 0 := by decide +kernel
theorem test_open_string : (run (.openStringSense 2) lit).ldu.retired = 4 := by decide +kernel

theorem test_turn_request : (run .turnRequest (toTurn (.turn 1) ready)).tsq.stage = some .platenUp := by
  decide +kernel
theorem test_turn_request_lit : (run .turnRequest (toTurn (.turn 1) lit)).tsq.stage = some .waitDark := by
  decide +kernel
theorem test_platen_request : (run .platenRequest (toTurn .platen ready)).occ.inbox = [.platen true] := by
  decide +kernel
theorem test_tsq_stop : (run .tsqStop (toTurn .stop (turning .lift))).tsq.stage = some .release := by
  decide +kernel
theorem test_up_closes : (run .upSwitchCloses (turning .platenUp)).tsq.stage = some .reach := by decide +kernel
theorem test_up_opens : (run .upSwitchOpens
      { ready with tsq := { ready.tsq with platen := .up, upSw := true } }).tsq.platen = .unknown := by
  decide +kernel
theorem test_down_closes : (run .downSwitchCloses (turning .platenDown)).occ.inbox
      = [.turn (.turned 2)] := by decide +kernel
theorem test_down_opens_lit : (run .downSwitchOpens lit).ldu.fall = true := by decide +kernel
theorem test_pressure : (run (.pressureReading 500) (turning .platenDown)).tsq.platen = .contact
    ∧ (run (.pressureReading 499) (turning .platenDown)).tsq.platen = .up := by decide +kernel
theorem test_edge : (run .edgeReached (turning .reach)).tsq.attempts = 2
    ∧ (run .edgeReached (turning .reach)).tsq.level = 3 := by decide +kernel
theorem test_burst_end : (run .burstEnd (turning .separate)).tsq.vacuum = .on := by decide +kernel
/-- R84, R85: the foot is raised by LIFT and lowered by RELEASE. -/
theorem test_foot : (run .burstEnd (turning .separate)).tsq.foot = .raised
    ∧ (run (.readSettled .two) (run .vacuumSwitchCloses (run .burstEnd (turning .separate)))).tsq.foot
      = .lowered := by decide +kernel
theorem test_vacuum_closes : (run .vacuumSwitchCloses (turning .lift)).tsq.stage = some .read := by
  decide +kernel
theorem test_vacuum_opens : (run .vacuumSwitchOpens (turning .sweep)).occ.inbox
      = [.turn (.failed .leafDropped 2)] := by decide +kernel
theorem test_read_settled : (run (.readSettled .one) (turning .read)).tsq.stage = some .sweep
    ∧ (run (.readSettled .two) (turning .read)).tsq.heavy = 1 := by decide +kernel
theorem test_sweep_end : (run .sweepEnd (turning .sweep)).tsq.stage = some .setDown := by decide +kernel
theorem test_park_closes : (run .parkSwitchCloses (turning .goHome)).tsq.arm = .parked := by decide +kernel
theorem test_park_opens : (run .parkSwitchOpens ready).tsq.arm = .unknown := by decide +kernel
theorem test_retry_window : (run .retryWindowExpiry
      { turning .lift with tsq := { (turning .lift).tsq with retryWatch := some 3 } }).tsq.windowClosed
      = true := by decide +kernel
theorem test_stage_watch : (run .stageWatchExpiry (turning .sweep)).tsq.arm = .held
    ∧ (run .stageWatchExpiry (turning .sweep)).exp.note = 0x40 := by decide +kernel
theorem test_cut_delay : (run .cutDelayExpiry
      { turning .retract with tsq := { (turning .retract).tsq with cutWatch := some 64 } }).tsq.arm
      = .dead := by decide +kernel
theorem test_park : (run .park (ordered (.park true) (at' .ready dead))).hasInFlight (.slotAnswer 3) = true
    ∧ (run .park (ordered (.park true) (turning .sweep))).tsq.vacuum = .off := by decide +kernel
/-- R96, step 3: the release flag alone lowers the foot. -/
theorem test_park_foot : let s := { ready with tsq := { ready.tsq with arm := .held, foot := .raised } }
    (run .park (ordered (.park true) s)).tsq.foot = .lowered
    ∧ (run .park (ordered (.park false) s)).tsq.foot = .raised := by decide +kernel
theorem test_arm_restore : (run .armRestore (ordered .armRestore dead)).tsq.arm = .unknown
    ∧ (run .armRestore (ordered .armRestore dead)).tsq.relayOpen = false := by decide +kernel

/-- One message at FBK for the LEFT channel. -/
def toBanks (m : FbkMsg) (s : State) : State := s.setFbk .left { s.fbk.left with inbox := [m] }
/-- A search of the LEFT channel. -/
def searching (x : Search) (s : State) : State := s.setFbk .left { s.fbk.left with search := some x }

theorem test_reservation : (run (.reservationRequest .left) (toBanks .reserve (granted .filled))).fbk.left.search
      = some (.reading 1) := by decide +kernel
theorem test_no_room : (run (.reservationRequest .left) (toBanks .reserve ready)).occ.inbox
      = [.noRoom .left] := by decide +kernel
theorem test_descriptor_read : (run (.descriptorReadComplete .left [0, 32, 0, 0, 0, 0, 0, 0, 64])
      (searching (.reading 0) (granted .free))).occ.inbox = [.reserved .left desc] := by decide +kernel
theorem test_unusable : (run (.unusableWriteComplete .left)
      (searching (.writing 0) (granted .free))).fbk.left.search = some (.reading 1) := by decide +kernel
theorem test_release : ((run (.releaseRequest .left)
      (toBanks (.release .bankA 0) (granted .reserved))).fbk.left.bankA.desc 0) = .free := by decide +kernel
theorem test_filled : ((run (.descriptorFilled .left)
      (toBanks (.filled .bankA 0) (granted .reserved))).fbk.left.bankA.desc 0) = .filled := by decide +kernel

/-- An arm request and a notice that wait at the LEFT channel. -/
def toArm (st : ChanState) : State := ready.setCch .left { Cch.reset with
  state := st, takeId := 0xFFFF, arms := [⟨desc, 40000, 1, .verso, 1⟩] }
def toTell (st : ChanState) : State := ready.setCch .left { Cch.reset with
  state := st, notices := [notice .exposed], take := some ⟨desc, 1, .verso, 1, 71, 5, none, none⟩ }
theorem test_arm : (run (.armRequest .left) (toArm .idle)).cch.left.sent
      = [.arm 0 40000 1 .verso 1 true] := by decide +kernel
theorem test_notice : (run (.endOfExposureNotice .left) (toTell .armed)).cch.left.frameWatch = some 7
    ∧ (run (.endOfExposureNotice .left) (toTell .idle)).cch.left.state = .idle := by decide +kernel
theorem test_header : (run (.frameHeader .left 1 64) (taking .exposed .exposed .between)).cch.left.intake = .taking
    ∧ (run (.frameHeader .left 2 64) (taking .exposed .exposed .between)).cch.left.intake
      = .discarding .spurned 2 64 0 := by decide +kernel

/-- A frame of one byte taken whole, with its check value. -/
def framed : State :=
  run (.bodyByte .left 0x31) (run (.frameHeader .left 1 1) (focused (taking .exposed .exposed .between)))
theorem test_body_byte : framed.host.inFlight = [⟨.body .left, 0, 8192, [0x31]⟩]
    ∧ framed.cch.left.written = 1 := by decide +kernel
theorem test_trailer : (run (.frameTrailer .left (crc [0x31])) framed).vau.judgements.map (·.outcome)
      = [.accepted]
    ∧ (run (.frameTrailer .left 0) framed).vau.judgements.map (·.outcome) = [.checkError] := by decide +kernel
theorem test_start_mark : (run (.startMark .left) framed).vau.judgements.map (·.outcome)
      = [.checkError] := by decide +kernel
theorem test_result_write : (run (.resultWriteComplete .left)
      (run (.startMark .left) framed)).cch.left.sent = [.answer .taken 1]
    ∧ (run (.resultWriteComplete .left) (run (.startMark .left) framed)).cch.left.take = none := by decide +kernel
theorem test_lost_bytes_stay : Memory.read (run (.frameWatchExpiry .left) framed).host.mem 8192 = some 0x31 := by
  decide +kernel
theorem test_frame_watch : (run (.frameWatchExpiry .left)
      (taking .exposed .exposed .between)).cch.left.state = .idle
    ∧ (run (.frameWatchExpiry .left) (taking .exposed .cut .between)).cch.left.state = .receiving
    ∧ framed.cch.left.bodyLength = 1 ∧ (run (.frameWatchExpiry .left) framed).cch.left.take = none
    ∧ (run (.frameWatchExpiry .left) framed).cch.left.intake = .discarding .spurned 1 1 1 := by
  decide +kernel

theorem test_sideband : ((run (.sideband .left 17 [0x52, 0x03] 0x98) (focused ready)).cch.left.slot 1).score
      = 850 := by decide +kernel
theorem test_sideband_bad : (run (.sideband .left 17 [0x52, 0x03] 0x99) (focused ready)) = focused ready := by
  decide +kernel
theorem test_malformed : (run (.sidebandMalformed .left 17 25) framed).cch.left.intake = .between := by
  decide +kernel
theorem test_stray : (run (.strayBytes .left [1, 2]) framed) = framed := by decide +kernel
theorem test_read_sideband : (run .readSideband (ordered .readSideband)).sideband.job
      = some ⟨3, ⟨true, true⟩, ⟨true, true⟩⟩ := by decide +kernel
theorem test_sideband_copy : (run (.sidebandCopy .right)
      (run .readSideband (ordered .readSideband))).host.inFlight.map (·.addr) = [0x1200] := by decide +kernel
theorem test_report_written : ((run (.sidebandReportWritten .right) (run (.sidebandCopy .right)
      (run .readSideband (ordered .readSideband)))).sideband.job.map (·.toWrite)) = some ⟨true, false⟩ := by
  decide +kernel

/-! ### Witnesses: for each statement with hypotheses, states and operands that meet them -/

/-- `ordered o s` has o as the first order of its owner; what else a statement asks of the state, s meets. -/
theorem wit_ordered (o : Order) (s : State) : (ordered o s).nextOrder o.owner
    = some (⟨3, o⟩, { s with exp := { s.exp with orders := [] } }) := by
  simp [State.nextOrder, ordered, takeOrder]

/-- `told m s` has m as the first message of its sender. -/
theorem wit_told (m : OccMsg) (s : State) : (told m s).nextMsg m.sender
    = some (m, { s with occ := { s.occ with inbox := [] } }) := by
  simp [State.nextMsg, told, takeMsg]

/-- An empty queue, and one that holds a command: every statement about a step. -/
def queued (c : Instr) (s : State := ready) : State := s.withPending [c]
theorem wit_StepRunsTheFrontCommand : (queued .strobeEnd).pending = [.strobeEnd] ∧ ready.pending = [] :=
  ⟨rfl, rfl⟩

theorem wit_ResetsSetEveryBlock : (Instr.controlEnable 2 = .controlEnable 2 ∧ (2 : Word32).getLsbD 1 = true)
    ∧ dead.tsq.vacuum = .on ∧ dead.tsq.arm = .dead ∧ ready.tsq.vacuum ≠ .on ∧ ready.tsq.arm ≠ .dead := by
  decide +kernel
/-- A write in flight that a reset cuts. -/
theorem wit_ResetCutsWritesInFlight : resets (.controlReset true) = true
    ∧ (∃ t, exec (.controlReset true) (writing .vau ready) = .next t)
    ∧ (writing .vau ready).host.inFlight = [⟨.vau, 0, 100, [7]⟩] := ⟨rfl, ⟨_, rfl⟩, rfl⟩
/-- CLOSING with the write of the closing-sum-valid flag in flight, which alone covers its byte. -/
theorem wit_ResetKeepsTheCloseFlag : (at' .closing).vau.vol = .closing
    ∧ ((at' .closing).writeCloseValid 0).host.inFlight = [⟨.vau, 0, 0x1026, [0]⟩]
    ∧ (⟨.vau, 0, 0x1026, [0]⟩ : HostWrite).Covers (ready.exp.base.toNat * 4096 + 0x1000 + 38) := by
  refine ⟨rfl, by decide +kernel, ?_⟩
  unfold HostWrite.Covers
  decide +kernel
/-- A write that names FREE slots alone, and one with slot 15 PENDING as its highest mispost. -/
theorem wit_PostJoinsTheQueue : (∀ i : Fin 16, ready.exp.slot i = .free)
    ∧ (0x8000 : Word32).getLsbD 15 = true ∧ (run (.post 0x8000) ready).exp.slot 15 ≠ .free := by decide +kernel
/-- The other clauses: an empty write, and a POST and an ACK of one ANSWERED slot in either order. -/
theorem wit_PostRaces : (∀ i : Fin 16, (0xFFFF0000 : Word32).getLsbD i.val = false)
    ∧ ready.exp.queue = [] ∧ posted.exp.queue.Nodup ∧ (∀ i ∈ posted.exp.queue, posted.exp.slot i = .pending)
    ∧ answered.exp.slot 0 = .answered ∧ 0 ∉ answered.exp.queue
    ∧ (run (.post 1) (run (.ack 1) answered)).exp.slot 0 = .taken
    ∧ (run (.ack 1) (run (.post 1) answered)).exp.slot 0 = .free
    ∧ (∃ t u, exec (.ack 1) answered = .next t ∧ exec (.post 1) t = .next u)
    ∧ (∃ t u, exec (.post 1) answered = .next t ∧ exec (.ack 1) t = .next u) := by
  refine ⟨by decide, by decide +kernel, by decide +kernel, by decide +kernel, by decide +kernel,
    by decide +kernel, by decide +kernel, by decide +kernel, ⟨_, _, rfl, rfl⟩, ⟨_, _, rfl, rfl⟩⟩
theorem wit_TakeBegins :
    ({ posted.exp with enable := true } : Exp).take = none ∧ posted.exp.queue = 0 :: []
    ∧ posted.exp.enable = false ∧ takingSlot.exp.take ≠ none ∧ ready.exp.queue = []
    ∧ (1 : Word32).getLsbD 1 = false := by decide +kernel
theorem wit_SlotReadDispatches : takingSlot.exp.take = some 0 ∧ parseOrder [7] = some .capture
    ∧ parseOrder [14] = none := by decide +kernel
/-- The limits of R165: n 1 and 1,024 pass, 0 and 1,025 fail; panel 8 passes, 9 fails; a flag 2 fails. -/
theorem wit_BadOrderExactly : parseOrder [6, 0, 0, 0, 1, 0] = some (.advance 1)
    ∧ parseOrder [6, 0, 0, 0, 0, 4] = some (.advance 1024) ∧ parseOrder [6, 0, 0, 0, 1, 4] = none
    ∧ parseOrder [6] = none ∧ parseOrder [9, 0, 0, 0, 2, 0, 2, 8] = some (.retake 2 .recto 8)
    ∧ parseOrder [9, 0, 0, 0, 2, 0, 2, 9] = none ∧ parseOrder [11, 0, 0, 0, 2] = none
    ∧ parseOrder [7, 1] = none ∧ parseOrder [] = none := by decide +kernel
/-- Slot 0 TAKEN with its answer write in flight. -/
def answering : State := run (.slotReadComplete [14]) takingSlot
theorem wit_AnswerWriteCompletes : answering.exp.slot 0 = .taken
    ∧ answering.hasInFlight (.slotAnswer 0) = true
    ∧ (∀ w ∈ answering.host.inFlight, w.writer = .slotStatus 0 ∨ w.writer = .slotAnswer 0 →
        200 < w.addr ∨ w.addr + w.bytes.length ≤ 200) := by decide +kernel
/-- The TAKEN status and the answer of slot 0, in flight together. -/
theorem wit_AnswerAfterStatus : answering.host.inFlight.filter
    (fun w => w.writer == .slotStatus 0 || w.writer == .slotAnswer 0)
      = [⟨.slotStatus 0, 0, 64, [1]⟩] ++ [⟨.slotAnswer 0, 1, 64, answerBytes .badOrder []⟩] := by decide +kernel
theorem wit_AnswerWriteAlone : (writing (.slotAnswer 0) ready).host.inFlight.filter
    (fun w => w.writer == .slotStatus 0 || w.writer == .slotAnswer 0) = [⟨.slotAnswer 0, 0, 100, [7]⟩] := by
  decide +kernel
theorem wit_AckFreesAnsweredSlots : (1 : Word32).getLsbD 0 = true ∧ answering.exp.slot 0 = .taken
    ∧ answering.hasInFlight (.slotAnswer 0) = true
    ∧ (∃ t u, exec (.answerWriteComplete 0) answering = .next t ∧ exec (.ack 1) t = .next u)
    ∧ (∃ t u, exec (.ack 1) answering = .next t ∧ exec (.answerWriteComplete 0) t = .next u) := by
  refine ⟨by decide, by decide +kernel, by decide +kernel, ⟨_, _, rfl, rfl⟩, ⟨_, _, rfl, rfl⟩⟩
/-- The slot that a step makes ANSWERED, and one that an ACK frees. -/
theorem wit_AnsweredMaskLaw : posted.exp.queue.Nodup ∧ (∀ i, i ∈ posted.exp.queue ↔ posted.exp.slot i = .pending)
    ∧ (∃ t, step (queued (.ack 1) answered) = .next t) ∧ answered.exp.slot 0 = .answered
    ∧ (run (.ack 1) answered).exp.slot 0 ≠ .answered
    ∧ answered.exp.queue.Nodup ∧ (∀ i, i ∈ answered.exp.queue ↔ answered.exp.slot i = .pending) := by
  refine ⟨by decide +kernel, by decide +kernel, ⟨_, rfl⟩, by decide +kernel, by decide +kernel,
    by decide +kernel, by decide +kernel⟩
theorem wit_RegistersReadAndWrite : (State.reset.vau.vol = .noVolume ∧ ∀ i, State.reset.exp.slot i = .free)
    ∧ ready.vau.vol ≠ .noVolume ∧ posted.exp.slot 0 ≠ .free := by decide +kernel
theorem wit_NotesStayUntilCleared : answered.exp.note.getLsbD Note.answer.bit = true
    ∧ (run (.noteClear 1) answered).exp.note.getLsbD Note.answer.bit = false
    ∧ ∃ t, step (queued (.noteClear 1) answered) = .next t :=
  ⟨by decide +kernel, by decide +kernel, ⟨_, rfl⟩⟩
theorem wit_NoteMaskDrivesInt :
    (run (.noteMaskWrite 0x40) ready).exp.noteMask.getLsbD Note.arm.bit = true := by decide +kernel
/-- The fields of CLOSE VOLUME's DONE, and fields at both ends of the answer (Table 11-4). -/
theorem wit_OrdersInAndAnswersOut :
    (∀ f ∈ [FieldVal.mk 68 1 2, ⟨72, 4, 0xCBF43926⟩, ⟨66, 1, 1⟩, ⟨126, 2, 5⟩],
      66 ≤ f.offset ∧ f.offset + f.width ≤ 128)
    ∧ [FieldVal.mk 68 1 2, ⟨72, 4, 0xCBF43926⟩, ⟨66, 1, 1⟩, ⟨126, 2, 5⟩].Pairwise
      (fun f g => f.offset + f.width ≤ g.offset ∨ g.offset + g.width ≤ f.offset) := by decide
/-- The first match at both ends of its range, and a key of no entry. -/
theorem wit_ClassLookupTakesTheFirstMatch :
    (classes.classes[0]? = some ⟨true, 10000, 19999, 2⟩ ∧ 10000 ≤ 10000 ∧ 10000 ≤ 19999)
    ∧ (classes.classes[3]? = some ⟨true, 20000, 20000, 1⟩
      ∧ ∀ e ∈ classes.classes.take 3, e.valid = false ∨ 20000 < e.base ∨ e.limit < 20000)
    ∧ ∀ e ∈ classes.classes, e.valid = false ∨ 20001 < e.base ∨ e.limit < 20001 := by decide +kernel
/-- A valid kind image: cap 1, levels 0, strobe 100, knife 0. -/
def kindImage : List Byte := [1, 0, 0, 0, 0, 0, 0, 0, 100, 0, 0, 0, 0, 0, 0, 0]
/-- A valid profile: budget 1, t_min 100, dose mode WITHHOLD, one attempt, HOLD, pressure limit 1. -/
def profileImage : List Byte := (List.replicate 5 kindImage).flatten
  ++ [1, 0, 0, 0, 100, 0, 0, 0, 0, 1, 1, 0, 0, 0, 1, 0, 1] ++ List.replicate 95 0
/-- A valid image: no class entry, no default, eight such profiles. -/
def image : List Byte := List.replicate 512 0 ++ (List.replicate 8 profileImage).flatten
/-- A byte of one of n copies of a record. -/
theorem byteAt_copies (x : List Byte) (n p k : Nat) (hp : p < n) (hk : k < x.length) :
    byteAt (List.replicate n x).flatten (x.length * p + k) = byteAt x k := by
  induction p generalizing n with
  | zero =>
    obtain ⟨n, rfl⟩ : ∃ m, n = m + 1 := ⟨n - 1, by omega⟩
    simp [byteAt, List.replicate_succ, List.getElem?_append_left hk]
  | succ p ih =>
    obtain ⟨n, rfl⟩ : ∃ m, n = m + 1 := ⟨n - 1, by omega⟩
    rw [← ih n (by omega)]
    have e : x.length * (p + 1) + k = x.length + (x.length * p + k) := by rw [Nat.mul_succ]; omega
    simp only [byteAt, List.replicate_succ, List.flatten_cons, e, List.getD_eq_getElem?_getD]
    rw [List.getElem?_append_right (by omega)]
    congr 4
    omega
theorem byteAt_image (p k : Nat) (hp : p < 8) (hk : k < 192) :
    byteAt image (profileAt p + k) = byteAt profileImage k := by
  have l : profileImage.length = 192 := by decide +kernel
  have h := byteAt_copies profileImage 8 p k hp (by omega)
  rw [l] at h
  rw [← h, profileAt, Nat.add_assoc]
  unfold image byteAt
  rw [List.getD_eq_getElem?_getD, List.getD_eq_getElem?_getD, List.getElem?_append_right (by rw [List.length_replicate]; omega)]
  rw [List.length_replicate, Nat.add_sub_cancel_left]
/-- The checks of a profile read its own 192 bytes alone. -/
theorem profilePasses_at (b c : List Byte) (o : Nat) (h : ∀ k, k < 192 → byteAt b (o + k) = byteAt c k) :
    profilePasses b o = profilePasses c 0 := by
  have h0 := h 0 (by decide)
  rw [Nat.add_zero] at h0
  simp [profilePasses, parseProfile, parseKind, leNat, Nat.add_assoc, h, h0]
theorem image_profiles (p : Nat) (hp : p < 8) : profilePasses image (profileAt p) = true := by
  rw [profilePasses_at image profileImage _ (fun k hk => byteAt_image p k hp hk)]
  decide +kernel
theorem image_classes : (List.range 16).find? (fun i => !classPasses image (classAt i)) = none := by
  decide +kernel
theorem image_cradle : (List.range 9).find? (fun i => !cradlePasses image cradleAt i) = none := by
  decide +kernel
theorem wit_valid_image : tableFailure image = none := by
  have q : (List.range 8).find? (fun p => !profilePasses image (profileAt p)) = none := by
    rw [List.find?_eq_none]
    intro p hp
    rw [image_profiles p (List.mem_range.1 hp)]
    decide
  rw [tableFailure, image_classes, q, image_cradle]
theorem wit_TableValidationStopsAtTheFirstFailure :
    tableFailure [2] = some (.cls, 0) ∧ tableFailure [] = some (.profile, 0) := by decide +kernel
/-- A LOAD TABLES in each of its stages. -/
def loading (j : PfsJob) (s : State := State.reset) : State :=
  { s with pfs := { s.pfs with job := some j, waiting := [4] } }
theorem wit_LoadTablesInstallsOrRefuses : State.reset.vau.vol = .noVolume ∧ ready.vau.vol ≠ .noVolume
    ∧ (loading (.reading 3)).pfs.job = some (.reading 3) ∧ State.reset.pfs.job = none
    ∧ (loading (.clearing 3 ⟨true, true⟩)).pfs.job = some (.clearing 3 ⟨true, true⟩)
    ∧ (ChanSet.erase ⟨true, true⟩ .left).isEmpty = false
    ∧ ChanSet.has ⟨false, true⟩ .right = true ∧ (ChanSet.erase ⟨false, true⟩ .right).isEmpty = true := by
  decide +kernel

/-- The state `ready` meets the laws that statements about every step carry as premises. -/
theorem wit_VolumeCoherent : ready.VolumeCoherent := by
  refine ⟨by decide, by decide, by decide, by decide, nofun, ⟨?_, nofun⟩⟩
  rintro ⟨_, h, _⟩
  cases h
theorem wit_InterlockLaw : ready.InterlockLaw :=
  ⟨⟨by decide, by decide, by decide, nofun, nofun, nofun, nofun, nofun⟩,
    ⟨by decide, by decide, by decide⟩, nofun, nofun, nofun⟩
/-- A SWEEP under that law, with the arm away from park. -/
theorem wit_InterlockLawSweep : (turning .sweep).InterlockLaw :=
  ⟨⟨by decide, by decide, nofun, fun _ _ _ => by decide, nofun, nofun, nofun, nofun⟩,
    ⟨by decide, by decide, by decide⟩, fun _ _ _ => by decide, fun _ => by decide, nofun⟩
theorem wit_StepsOfReady (c : Instr) : ∃ t, step (queued c) = .next t := by
  cases c <;> exact ⟨_, rfl⟩
theorem wit_TablesAreLockedWhileOpen : ready.vau.vol ≠ .noVolume
    ∧ (run .strobeEnd ready).vau.vol ≠ .noVolume := by decide +kernel
theorem wit_AccountLawsKept : ready.vau.CaptureLaw ∧ ready.vau.NumberLaw :=
  ⟨by unfold Vau.CaptureLaw SideRec.CaptureLaw; decide +kernel, ⟨by decide, .inr (by decide +kernel)⟩⟩
theorem wit_DosesOnlyGrowWhileOpen : ready.ldu.DoseLaw ∧ ready.vau.vol ≠ .opening :=
  ⟨by unfold Ldu.DoseLaw; decide +kernel, by decide⟩
/-- A strobe that begins at a fire request. -/
theorem wit_StrobeBegins : (exposing .admitted).ldu.bankLit = false
    ∧ (run .fireRequest (toLight .fire (exposing .admitted))).ldu.bankLit = true := by decide +kernel
theorem wit_MemoryStaysCanonical : answered.memoryCanonical ∧ answered.host.mem ≠ [] := by decide +kernel

/-- The limits of R27: 3 and 1,024 entries, and 2 and 1,025. -/
theorem wit_OpenVolumeReadsTheSheet : (opening .header State.reset).vau.openJob = some ⟨3, .header⟩
    ∧ State.reset.vau.openJob = none ∧ State.reset.vau.vol = .noVolume
    ∧ (leNat sheet 38 2 = 3 ∧ byteAt sheet 37 ≤ 1)
    ∧ leNat (List.replicate 38 0 ++ [0, 4]) 38 2 = 1024 ∧ leNat (List.replicate 38 0 ++ [1, 4]) 38 2 = 1025
    ∧ leNat (List.replicate 38 0 ++ [2]) 38 2 = 2
    ∧ byteAt (List.replicate 37 0 ++ [2, 3]) 37 = 2 := by decide +kernel
theorem wit_PlanReadOpensOrRefuses : planning.vau.openJob = some ⟨3, .plan (parseHeader sheet)⟩
    ∧ planning.pfs.loaded = true ∧ State.reset.pfs.loaded = false
    ∧ planning.pfs.lookup 0 = some 0 ∧ ready.pfs.lookup 0 = none
    ∧ (parseHeader sheet).resume = 0 ∧ (parseHeader (List.replicate 37 0 ++ [1, 3])).resume = 1
    ∧ (parseHeader (List.replicate 37 0 ++ [2, 3])).resume = 2 := by
  decide +kernel
theorem wit_PlanPassesAndFails :
    parsePlan entries 3 = .ok [⟨.board, 1, 0⟩, ⟨.text, 1, 0⟩, ⟨.board, 1, 0⟩] ∧ parsePlan [2] 3 = .error 0 :=
  ⟨rfl, rfl⟩
/-- The eight-entry plan of section 2.2, its openings, and the entries with and without a next physical one. -/
def eightPlan : List PlanEntry := [⟨.board, 1, 0⟩, ⟨.text, 1, 0⟩, ⟨.plate, 1, 0⟩, ⟨.tissue, 1, 0⟩, ⟨.lacuna, 1, 0⟩,
  ⟨.foldout, 3, 0⟩, ⟨.text, 1, 0⟩, ⟨.board, 1, 0⟩]
theorem test_openings : [0, 1, 2, 3, 5, 6].map (nextPhysical eightPlan) = [1, 2, 3, 5, 6, 7]
    ∧ lastOpening eightPlan = 6
    ∧ (List.range 9).filter (inOpeningRange eightPlan) = [0, 1, 2, 3, 5, 6] := by decide +kernel
theorem wit_PlanChecksOpenings : (planAt eightPlan 4).kind = .lacuna ∧ (planAt eightPlan 5).kind ≠ .lacuna
    ∧ eightPlan[7]? = some ⟨.board, 1, 0⟩ ∧ eightPlan[8]? = none ∧ 6 + 1 < eightPlan.length
    ∧ nextPhysical eightPlan 7 = eightPlan.length := by decide +kernel
theorem wit_LedgerEntriesStartSound : plan[0]? = some ⟨.board, 1, 70⟩ ∧ plan[3]? = some ⟨.foldout, 2, 73⟩ := by
  decide
/-- An entry as read that fits a leaf of text, its recto CAPTURED with its panel missing; and one of no kind. -/
def entryRead : List Byte := [2] ++ List.replicate 15 0 ++ [1, 0, 1] ++ List.replicate 69 0 ++ [2, 0, 1]
theorem wit_EntriesFitOrNot : (byteAt entryRead 0 = Kind.text.code
      ∧ (1 ≤ byteAt entryRead 16 ∧ byteAt entryRead 16 ≤ 6 ∧ byteAt entryRead 18 = 1)
      ∧ (1 ≤ byteAt entryRead 88 ∧ byteAt entryRead 88 ≤ 6 ∧ byteAt entryRead 90 = 1))
    ∧ (byteAt entryRead 88 = 2 ∧ leNat entryRead 96 4 = 0) ∧ byteAt entryRead 16 ≠ 2
    ∧ byteAt [] 0 ≠ Kind.text.code ∧ LedgerEntry.absent.recto.panels.length ≤ 8 := by decide +kernel
/-- A cursor of the opening range and one outside it; frame numbers left, and exhausted. -/
theorem wit_LedgerReadResumesTheVolume :
    (opening .ledger (at' .opening)).vau.openJob = some ⟨3, .ledger⟩
    ∧ inOpeningRange plan 3 = true ∧ inOpeningRange plan 4 = false
    ∧ leNat [0, 0, 0, 0, 0, 0, 0, 0, 2, 0, 0, 0, 9] 12 4 ≠ 0 ∧ leNat [] 12 4 = 0
    ∧ largestFrame ready.vau.mirror ≠ 4294967295
    ∧ largestFrame (skipMark plan 1 2 [{ LedgerEntry.absent with recto := ⟨.captured, 1, 5, [⟨9, 1⟩]⟩ }]) = 9 := by
  decide +kernel
theorem wit_OpeningEndsReady : (opening (.writes 7) (at' .opening)).vau.openJob = some ⟨3, .writes 7⟩
    ∧ (ready.fbk.get .left).bankA.has .filled = false
    ∧ framed.cch.left.intake = .taking ∧ ready.cch.left.intake ≠ .taking
    ∧ framed.cch.left.take.map (·.desc) = some desc ∧ (granted .reserved).fbk.left.bankA.desc 0 = .reserved := by
  decide +kernel
/-- Entries at and past the RIGHT page, the two boards, and a kind that is not to be named. -/
theorem wit_AmendChangesOneEntryAhead : ready.vau.rightEntry = 2 ∧ ready.vau.plan.length = 5
    ∧ (3 + 1 < 5 ∧ 2 < 3 ∧ (planAt ready.vau.plan 3).kind.code ≠ 2)
    ∧ (planAt ready.vau.plan 3).kind.code = 5 ∧ 4 + 1 = ready.vau.plan.length
    ∧ (planAt [⟨.board, 1, 0⟩, ⟨.text, 1, 0⟩, ⟨.text, 1, 0⟩, ⟨.text, 1, 0⟩, ⟨.board, 1, 0⟩] 3).kind.code = 2
    ∧ (run .amend (ordered (.amend 3 2))).vau.amendJobs ≠ [] := by decide +kernel
theorem wit_SkipMarkingHidesThePassedSides : ready.vau.mirror[1]? ≠ none
    ∧ (∃ x, ready.vau.mirror[1]? = some x ∧ x.verso.status = .pending) := by
  exact ⟨by decide, ⟨_, rfl, rfl⟩⟩
/-- A turning reason with a cursor at the end of the range and past it, and the three foldout reasons. -/
theorem wit_HandDoneEndsTheHandStep : waiting.vau.vol = .handWait
    ∧ waiting.vau.step = some ⟨.doubleLift, 2⟩ ∧ (2 = Reason.doubleLift.code ∧ 3 ≠ Reason.doubleLift.code)
    ∧ Reason.doubleLift.foldout = false ∧ Reason.foldoutUnfold.foldout = true
    ∧ (waiting .foldoutPanel).vau.step = some ⟨.foldoutPanel, 2⟩ ∧ Reason.foldoutRefold.code = 7
    ∧ inOpeningRange waiting.vau.plan 3 = true ∧ inOpeningRange waiting.vau.plan 4 = false
    ∧ (run .handDone (ordered (.handDone 2 2) waiting)).vau.handJobs ≠ [] := by decide +kernel
/-- A CLOSE VOLUME at each of its steps. -/
def closing (k : Nat) : State :=
  { at' .closing with vau := { (at' .closing).vau with closeJob := some ⟨3, k, false, 0⟩ } }
/-- R50, R143: a report that FBK has not taken does not refuse CLOSE VOLUME; it holds the end of CLOSING. -/
theorem test_close_waits : (run .closeVolume (ordered (.closeVolume true)
      (toBanks (.filled .bankA 0) ready))).vau.vol = .closing
    ∧ (run .closingWriteComplete (toBanks (.filled .bankA 0) (closing 4))).vau.vol = .closing
    ∧ (run .closingWriteComplete (closing 4)).vau.vol = .noVolume := by decide +kernel
theorem wit_CloseVolumeFixesTheAccount : ready.takeOutstanding .left = false
    ∧ ready.takeOutstanding .right = false ∧ ready.vau.incomplete ≠ 0
    ∧ (judged .soft).takeOutstanding .left = true
    ∧ Vau.incomplete { ready.vau with mirror := [] } = 0
    ∧ (closing 1).vau.closeJob = some ⟨3, 1, false, 0⟩ ∧ (closing 2).vau.amendJobs = []
    ∧ (closing 2).vau.handJobs = [] ∧ (closing 4).vau.closeJob = some ⟨3, 4, false, 0⟩
    ∧ (toBanks (.filled .bankA 0) (closing 4)).fbk.left.inbox = [.filled .bankA 0]
    ∧ (toBanks (.filled .bankA 0) (closing 4)).vau.closeJob = some ⟨3, 4, false, 0⟩
    ∧ ((closing 4).fbk.left.inbox = [] ∧ (closing 4).fbk.right.inbox = [])
    ∧ ready.vau.text.length = 32 ∧ ready.vau.nextFrame ≠ 0 ∧ Vau.reset.nextFrame = 0 := by decide +kernel

/-- READY away from the last opening and at it, FOLDED and UNFOLDED; panels within the side and beyond. -/
def atEnd : State := { ready with vau := { ready.vau with cursor := 3 } }
def unfolded (k : Nat) : State := { ready with vau := { ready.vau with
  cursor := 2, unfolded := true, nextPanel := k } }
theorem wit_CycleOrdersAreDecided : ready.vau.vol = .ready
    ∧ ready.vau.cursor ≠ lastOpening ready.vau.plan ∧ atEnd.vau.cursor = lastOpening atEnd.vau.plan
    ∧ (unfolded 2).vau.unfolded = true ∧ ready.vau.unfolded = false
    ∧ (1 = ready.vau.cursor ∧ 1 ≤ (ready.vau.sideRec 1 .verso).panels.length)
    ∧ (3 = (unfolded 2).vau.rightEntry ∧ 2 ≤ ((unfolded 2).vau.sideRec 3 .recto).panels.length)
    ∧ ((unfolded 2).vau.sideRec 3 .recto).panels.length < 3
    ∧ (planAt (unfolded 2).vau.plan 3).kind = .foldout
    ∧ ((unfolded 2).vau.nextPanel = 2 ∧ (unfolded 1).vau.nextPanel ≠ 2)
    ∧ ready.occ.pendingPause ≠ some .cameraFault := by decide +kernel
/-- With the stage FOLDED: a foldout not done and done, a page of text, and no target at all. -/
def folded (done : Bool) : State := { ready with
  vau := { ready.vau with cursor := 2 }, occ := { ready.occ with foldoutDone := done } }
def noTargets : State := { ready with vau := { ready.vau with
  mirror := ready.vau.mirror.map (fun e => { e with
    verso := { e.verso with status := .captured }, recto := { e.recto with status := .withheld } }) } }
theorem wit_PhaseTakesTheFirstLine :
    (unfolded 1).vau.panelAccepted = false
    ∧ ((planAt plan (folded false).vau.rightEntry).kind = .foldout
      ∧ ((folded false).vau.sideRec 3 .recto).status.isTarget = true)
    ∧ ((folded true).occ.foldoutDone = true ∧ ((folded true).vau.sideRec 2 .verso).status.isTarget = true)
    ∧ ((planAt plan ready.vau.rightEntry).kind ≠ .foldout
      ∧ (ready.vau.sideRec 1 .verso).status.isTarget = true)
    ∧ ((noTargets.vau.sideRec 1 .verso).status.isTarget = false
      ∧ (noTargets.vau.sideRec 2 .recto).status.isTarget = false)
    ∧ (turning .reach).tsq.arm ≠ .parked ∧ ready.tsq.arm = .parked ∧ ready.tsq.platen = .down := by
  decide +kernel
theorem wit_PanelAccepted : (run (.judgementTaken .right)
    { unfolded 1 with vau := { (unfolded 1).vau with
      judgements := [⟨.right, 3, .recto, 1, .accepted, 7, false, false, false, false⟩] } }).vau.panelAccepted
      = true := by decide +kernel
/-- An ADVANCE with turns left and without, at the last opening and before it; a pause pending. -/
def pausing (p : PendingPause) (s : State) : State := { s with occ := { s.occ with pendingPause := some p } }
theorem wit_PhaseEndDecidesTheOrder :
    (cycling (.advance 2) .none).occ.order = some ⟨2, .advance 2⟩
    ∧ (cycling .capture .none).occ.order = some ⟨2, .capture⟩
    ∧ (cycling (.retake 1 .verso 1) .none).occ.order = some ⟨2, .retake 1 .verso 1⟩
    ∧ (pausing .lampFault (cycling .capture .none)).occ.pendingPause = some .lampFault
    ∧ (cycling .capture .none).occ.pendingPause = none ∧ ready.occ.turnsLeft = 0
    ∧ (run .advance (ordered (.advance 2))).occ.turnsLeft ≠ 0
    ∧ ((unfolded 1).vau.nextPanel < ((unfolded 1).vau.sideRec 3 .recto).panels.length)
    ∧ (((unfolded 2).vau.sideRec 3 .recto).panels.length ≤ (unfolded 2).vau.nextPanel) := by decide +kernel
/-- A reservation held, a STOP being carried out, a side on the retake list. -/
def laden : State := { stopping .none with
  occ := { (stopping .none).occ with held := ⟨some desc, none⟩, retakes := [⟨1, .verso, 1⟩] }
  fbk := (granted .reserved).fbk }
theorem wit_OrdersEndWhole : laden.occ.order = some ⟨2, .capture⟩ ∧ 9 ∈ laden.occ.stops
    ∧ laden.occ.held.get .left = some desc ∧ (laden.fbk.left.bankA.desc 0) = .reserved
    ∧ ∃ x, laden.vau.mirror[1]? = some x ∧ x.verso.status = .pending :=
  ⟨by decide, by decide, by decide, by decide +kernel, ⟨_, rfl, rfl⟩⟩
/-- The LEFT side on the retake list and none still to take its half, and an empty list. -/
theorem wit_RetakesListed : ∀ c : Chan,
    (ChanSet.has ⟨true, false⟩ c = true ↔ (∃ i ∈ laden.occ.retakes, i.side.chan = c)
      ∧ ¬∃ x ∈ laden.occ.todo, x.auto = true ∧ x.sides.has c = true)
    ∧ (ChanSet.has ⟨false, false⟩ c = true ↔ (∃ i ∈ ready.occ.retakes, i.side.chan = c)
      ∧ ¬∃ x ∈ ready.occ.todo, x.auto = true ∧ x.sides.has c = true) := by
  intro c
  cases c <;> decide +kernel
theorem wit_ReleasesAnswered : laden.occ.releasing = ⟨false, false⟩ ∧ releasing.occ.releasing ≠ ⟨false, false⟩
    ∧ releasing.occ.order = some ⟨2, .capture⟩ ∧ releasing.occ.work = .releasing
    ∧ (stopping .none).occ.work ≠ .releasing := by decide +kernel
theorem wit_ExposuresWaitAndReserve :
    (taking .faulted .exposed .between).cch.left.state = .faulted
    ∧ (taking .armed .exposed .between).cch.left.state = .armed
    ∧ (∃ j ∈ (judged .soft).vau.judgements, j.chan = .left)
    ∧ (ready.cch.left.state = .idle ∧ ready.vau.judgements = [] ∧ ready.vau.isTarget .left = true)
    ∧ noTargets.vau.isTarget .left = false
    ∧ (cycling .capture (.reserving both .left)).occ.work = .reserving both .left
    ∧ (stopping (.reserving both .left)).occ.stops ≠ [] ∧ (cycling .capture .none).occ.stops = []
    ∧ roomWait.occ.work = .roomWait both .left ∧ roomWait.occ.roomWatch = some 11 := by decide +kernel
theorem wit_AdmissionAnswersSteerTheExposure :
    (cycling .capture (.admitting both)).occ.work = .admitting both
    ∧ (cycling .capture (.admitting both)).occ.stops = [] ∧ (stopping (.admitting both)).occ.stops ≠ []
    ∧ laden.occ.held.get .left = some desc ∧ laden.occ.held.get .right = none
    ∧ isRetake (cycling (.retake 1 .verso 1) .none).occ.order = true
    ∧ isRetake (cycling .capture .none).occ.order = false
    ∧ ready.vau.mirror[1]? ≠ none := by decide +kernel
theorem wit_ArmedExposuresFire :
    (cycling .capture (.arming both ⟨true, false⟩ ⟨true, false⟩)).occ.work
      = .arming both ⟨true, false⟩ ⟨true, false⟩
    ∧ Pair.set (⟨true, false⟩ : ChanSet) .right true = both.sides
    ∧ Pair.set (⟨false, false⟩ : ChanSet) .right true ≠ both.sides
    ∧ (cycling .capture (.firing both)).occ.work = .firing both
    ∧ (cycling .capture (.firing both)).profile.wait = true ∧ State.reset.profile.wait = false
    ∧ (pausing .cameraFault (cycling .capture (.firing both))).occ.pendingPause = some .cameraFault
    ∧ (stopping .cancelling).occ.work = .cancelling := by decide +kernel
theorem wit_TurnsAndFaultsReachTheOrder :
    (cycling .turn .turning).occ.work = .turning ∧ (cycling .turn .platen).occ.work = .platen
    ∧ (cycling (.advance 2) .turning).occ.order = some ⟨2, .advance 2⟩
    ∧ (cycling .turn .turning).occ.pendingPause = none ∧ ready.occ.order = none
    ∧ roomWait.occ.work = .roomWait both .left ∧ (stopping .turning).occ.stops ≠ []
    ∧ (stopping .turning).occ.work = .turning := by decide +kernel
/-- An awaited rejection below the limit, one that is not awaited, and an acceptance with its number. -/
def awaitedSoft : State := { cycling .capture (.judging both) (judged .soft) with
  occ := { (cycling .capture (.judging both)).occ with awaiting := ⟨true, true⟩ } }
/-- The same rejection of an earlier take: it is late, and no retake follows (R67). -/
def lateSoft : State := { awaitedSoft with
  vau := { awaitedSoft.vau with judgements := awaitedSoft.vau.judgements.map (Judgement.passed both.sides) } }
theorem test_late : (run (.judgementTaken .left) lateSoft).occ.awaiting = ⟨true, true⟩
    ∧ (run (.judgementTaken .left) lateSoft).occ.retakes = []
    ∧ ((run (.judgementTaken .left) lateSoft).vau.sideRec 1 .verso).status = .retakeDue := by decide +kernel
theorem wit_JudgementsReachTheLedger :
    (takeJudgement .left (judged .accepted).vau.judgements).map (·.1.outcome) = some .accepted
    ∧ (takeJudgement .left awaitedSoft.vau.judgements).map (·.1.madeFaulted) = some false
    ∧ awaitedSoft.occ.awaiting.has .left = true ∧ awaitedSoft.occ.autoCount 1 .verso < awaitedSoft.profile.autoLimit
    ∧ awaitedSoft.occ.pendingPause = none ∧ ready.vau.nextFrame ≠ 0
    ∧ awaitedSoft.vau.judgements.map (·.late) = [false] ∧ lateSoft.vau.judgements.map (·.late) = [true]
    ∧ ready.occ.awaiting.has .left = false ∧ State.reset.vau.nextFrame = 0 ∧ 1 < awaitedSoft.occ.auto.length
    ∧ (cycling .capture (.judging both)).occ.work = .judging both
    ∧ (cycling .capture (.judging both)).occ.awaiting = ⟨false, false⟩ := by decide +kernel
theorem wit_ResultAwaitsItsNumber :
    ((run (.frameTrailer .left (crc [0x31])) framed).cch.left.result.map (·.awaitsNumber)) = some true
    ∧ (run (.frameTrailer .left (crc [0x31])) framed).cch.left.take ≠ none := by decide +kernel
theorem wit_StopActsOnEachPieceOfWork : ready.occ.order = none ∧ (cycling .capture .none).occ.stops = []
    ∧ (stopping .none).occ.stops ≠ [] ∧ (stopping .none).occ.order ≠ none
    ∧ (cycling .capture (.admitting both)).occ.work = .admitting both ∧ releasing.occ.work = .releasing := by
  decide +kernel
/-- An admission in flight that holds a RESERVED descriptor, with no STOP yet. -/
def admittingHeld : State := { cycling .capture (.admitting both) (granted .reserved) with
  occ := { (cycling .capture (.admitting both)).occ with held := ⟨some desc, none⟩ } }
theorem wit_StopReleasesTheAdmission : admittingHeld.occ.work = .admitting both ∧ admittingHeld.occ.stops = []
    ∧ admittingHeld.occ.order ≠ none ∧ admittingHeld.occ.held.get .left = some desc
    ∧ ((admittingHeld.fbk.left).bank .bankA).desc 0 = .reserved
    ∧ (run .stop (ordered .stop admittingHeld)).ldu.inbox = [.abandon] := by decide +kernel

/-- The sequencer's preconditions, each with the other value beside it. -/
theorem wit_TurnsBeginAndAreStopped : (toTurn (.turn 1) ready).tsq.inbox = [.turn 1]
    ∧ (ready.tsq.arm = .parked ∧ ready.tsq.vacuum = .off ∧ ready.tsq.work = .none)
    ∧ ready.ldu.bankLit = false ∧ lit.ldu.bankLit = true ∧ ready.tsq.upSw = false
    ∧ ready.tsq.platen ≠ .up ∧ (turning .platenUp).tsq.platen = .up ∧ dead.tsq.arm ≠ .parked
    ∧ ready.tsq.downSw = true ∧ State.reset.tsq.downSw = false
    ∧ (ready.profile.pressureLimit = 500 ∧ ready.tsq.pressure = 0)
    ∧ (turning .lift).tsq.work = .turn 1 2 ∧ (turning .lift).tsq.stage = some .lift
    ∧ (turning .lift).tsq.turnedBack = false ∧ (turning .lift).tsq.failure = none
    ∧ (run (.readSettled .two) (run (.readSettled .two) (turning .read))).tsq.work = .turn 1 2 := by
  decide +kernel
/-- The last attempt of a turn: its failure is recorded. -/
theorem wit_TurnFailureRecorded : (run (.readSettled .two)
    { turning .read with tsq := { (turning .read).tsq with attempts := 2 } }).tsq.failure
      = some .doubleLift := by decide +kernel
theorem wit_TurnStagesFollowTheirEvents : (turning .platenUp).tsq.stage = some .platenUp
    ∧ (turning .release).tsq.work = .turn 1 2 ∧ ready.tsq.stage = none ∧ (turning .lift).tsq.stage ≠ some .reach
    ∧ (turning .read).tsq.windowClosed = false ∧ (turning .read).tsq.attempts < ready.profile.attemptLimit
    ∧ ({ (turning .read).tsq with retryWatch := some 3 } : Tsq).retryWatch = some 3 := by decide +kernel
/-- A PARK in flight from slot 3. -/
def parking : State := { turning .reach with tsq := { (turning .reach).tsq with
  work := .park 3, stage := none } }
theorem wit_SwitchesMoveTheStates : (ready.tsq.work = .none ∧ ready.tsq.stage = none ∧ ready.tsq.arm ≠ .dead)
    ∧ dead.tsq.arm = .dead ∧ (turning .platenDown).tsq.stage = some .platenDown
    ∧ (500 : Fin 1024).val = ready.profile.pressureLimit ∧ (499 : Fin 1024).val < ready.profile.pressureLimit
    ∧ (turning .goHome).tsq.stage = some .goHome ∧ (turning .retract).tsq.stage = some .retract
    ∧ parking.tsq.work = .park 3 := by decide +kernel
theorem wit_StallsAndParksEndTheMotion : (turning .sweep).tsq.stageWatch = some 5 ∧ parking.tsq.stageWatch = some 5
    ∧ ready.tsq.stageWatch = none ∧ ready.profile.stallAction = .hold
    ∧ ({ (turning .retract).tsq with cutWatch := some 64 } : Tsq).cutWatch ≠ none
    ∧ (turning .retract).tsq.cutWatch = none ∧ ready.tsq.arm = .parked ∧ dead.tsq.arm = .dead
    ∧ (turning .reach).tsq.work ≠ .none ∧ State.reset.tsq.arm ≠ .parked := by decide +kernel

theorem wit_DoseBoundsKeepEveryAllowance : 26561 ≤ (nearCap.doseCase ⟨true, false⟩ .retake).time
    ∧ 0 ≤ (exhausted.doseCase ⟨true, false⟩ .retake).time
    ∧ (nearCap.doseCase ⟨true, false⟩ .retake).bounds.left
      = some (nearCap.doseCase ⟨true, false⟩ .retake).time := by decide +kernel
theorem wit_AdmissionChargesOrRefuses :
    (toLight (.request ⟨true, true⟩ .normal) ready).ldu.inbox = [.request ⟨true, true⟩ .normal]
    ∧ ready.ldu.state = .idle ∧ lit.ldu.state ≠ .idle
    ∧ ready.profile.tMin ≤ (nearCap.doseCase ⟨true, false⟩ .retake).time
    ∧ ¬((exhausted.doseCase ⟨true, false⟩ .retake).time = (exhausted.doseCase ⟨true, false⟩ .retake).requested
      ∨ ready.profile.tMin ≤ (exhausted.doseCase ⟨true, false⟩ .retake).time)
    ∧ (exhausted.doseCase ⟨true, true⟩ .normal).time < ready.profile.tMin
    ∧ ready.profile.doseMode = .withhold ∧ 2 < ready.ldu.sideDose.length := by decide +kernel
theorem wit_ChargesStandWhenAbandoned : (exposing .charging).ldu.state = .charging
    ∧ (exposing .charging).ldu.record ≠ none ∧ (exposing .charging).ldu.abandoned = false
    ∧ (run .abandonRequest (toLight .abandon (exposing .charging))).ldu.abandoned = true
    ∧ (toLight .abandon ready).ldu.inbox = [.abandon] ∧ (exposing .admitted).ldu.state = .admitted := by
  decide +kernel
theorem wit_StrobesFireUnderTheInterlock : (toLight .fire (exposing .admitted)).ldu.inbox = [.fire]
    ∧ (exposing .admitted).ldu.state = .admitted ∧ ready.tsq.arm = .parked ∧ ready.tsq.platen = .down
    ∧ (turning .reach (exposing .admitted)).tsq.arm ≠ .parked ∧ lit.ldu.state = .lit
    ∧ lit.ldu.record.map (·.driven) = some 0xF ∧ lit.ldu.fall = false ∧ ready.ldu.state ≠ .lit
    ∧ (turning .waitDark lit).tsq.stage = some .waitDark ∧ lit.ldu.bankLit = true ∧ ready.ldu.record = none := by
  decide +kernel

theorem wit_ArmsAndNoticesAreTaken : (toArm .idle).cch.left.arms = [⟨desc, 40000, 1, .verso, 1⟩]
    ∧ (toArm .idle).cch.left.state = .idle ∧ (toArm .faulted).cch.left.state ≠ .idle
    ∧ (toTell .armed).cch.left.notices = [notice .exposed] ∧ (toTell .armed).cch.left.take ≠ none
    ∧ (toTell .armed).cch.left.state = .armed ∧ (toTell .idle).cch.left.state ≠ .armed := by decide +kernel
/-- The last byte of the body and the one after it, the last byte of the buffer and the one after it, a frame
taken, repeated and spurned. -/
theorem wit_FramesAreTakenOrDiscarded :
    ((taking .exposed .exposed .between).cch.left.state = .exposed
      ∧ (taking .exposed .exposed .between).cch.left.takeId = 1)
    ∧ (run (.startMark .left) framed).cch.left.lastDone = some 1
    ∧ (framed.cch.left.intake = .taking ∧ framed.cch.left.received = framed.cch.left.bodyLength)
    ∧ (run (.frameHeader .left 1 1) (taking .exposed .exposed .between)).cch.left.received < 1
    ∧ (run (.frameHeader .left 1 1) (taking .exposed .exposed .between)).cch.left.bodyLength = 1
    ∧ (0 < desc.cap ∧ desc.cap = 64)
    ∧ (run (.frameHeader .left 1 65) (taking .exposed .exposed .between)).cch.left.bodyLength = 65
    ∧ (taking .armed .exposed (.discarding .spurned 2 5 4)).cch.left.intake = .discarding .spurned 2 5 4 := by
  decide +kernel
/-- A body at the capacity and beyond it, and the gate passed and not passed. -/
theorem wit_FramesAreJudgedByTheTable : framed.cch.left.take.map (·.notice) = some (some (notice .exposed))
    ∧ framed.cch.left.bodyLength ≤ desc.cap ∧ desc.cap < 65
    ∧ (~~~ framed.cch.left.crc == crc [0x31]) = true ∧ (~~~ framed.cch.left.crc == 0) = false
    ∧ framed.profile.gate = (1 : Fin 4).val + 1
    ∧ (focus.valid = true ∧ focus.age < 3 ∧ focus.checkError = false ∧ 900 ≤ slotScore focus)
    ∧ SbSlot.reset.valid = false := by decide +kernel
/-- A result write in flight; a running watch, a stopped one and one of class 0; no LOST take, and one. -/
theorem wit_TakesEndInResultsOrLost :
    ((run (.startMark .left) framed).cch.left.result.map (·.awaitsNumber) = some false
      ∧ (run (.startMark .left) framed).hasInFlight (.result .left) = true)
    ∧ (taking .exposed .exposed .between).cch.left.frameWatch = some 7 ∧ ready.cch.left.frameWatch = none
    ∧ (taking .exposed .exposed .between).cch.left.lost = 0
    ∧ (framed.cch.left.frameWatch = some 7 ∧ framed.hasInFlight (.body .left) = true)
    ∧ (run (.frameWatchExpiry .left) (taking .exposed .exposed .between)).cch.left.lost = 1
    ∧ (cycling .capture (.channelWait both)).occ.work = .channelWait both
    ∧ (cycling .capture (.channelWait both) (taking .exposed .exposed .between)).mustWait both = true
    ∧ (cycling .capture (.channelWait both)).mustWait both = false := by decide +kernel
theorem wit_ReservationsSearchTheActiveBank :
    ((0x8 : Word32).getLsbD 3 = true ∧ ready.fbk.right.bankB.granted = false)
    ∧ (granted .free).fbk.left.bankA.granted = true
    ∧ ((granted .filled).fbk.left.bankA.desc 0 ≠ .free ∧ (granted .filled).fbk.left.bankA.desc 1 = .free)
    ∧ (toBanks .reserve ready).fbk.left.inbox = [.reserve] ∧ ready.fbk.left.search = none
    ∧ (∀ i, (granted .filled).fbk.left.bankA.desc i ≠ .reserved
      ∧ (granted .filled).fbk.left.bankB.desc i ≠ .reserved)
    ∧ (granted .reserved).fbk.left.bankA.desc 0 = .reserved
    ∧ (searching (.reading 0) ready).fbk.left.search = some (.reading 0)
    ∧ (searching (.writing 3) ready).fbk.left.search = some (.writing 3)
    ∧ leNat [0, 0, 0, 0, 0, 0, 0, 0, 64] 8 4 = 64 ∧ leNat [0, 0, 0, 0, 0, 0, 0, 0, 63] 8 4 = 63
    ∧ leNat [0, 0, 0, 0, 0, 0, 0, 0, 65] 8 4 % 64 ≠ 0 := by decide +kernel
theorem wit_FullBanksAreHandedOver : (granted .reserved).fbk.left.bankA.desc 0 = .reserved
    ∧ (granted .free).fbk.left.bankA.desc 0 ≠ .reserved ∧ ready.fbk.left.owed = false
    ∧ (∀ k : Fin 4, k ≠ 0 → Bank.desc ⟨true, #v[.reserved, .filled, .filled, .filled]⟩ k = .filled)
    ∧ (toBanks (.release .bankA 0) ready).fbk.left.inbox = [.release .bankA 0]
    ∧ (toBanks (.filled .bankA 0) ready).fbk.left.inbox = [.filled .bankA 0]
    ∧ (granted .filled).fbk.left.bankA.has .filled = true
    ∧ (granted .filled).fbk.left.bankA.has .reserved = false
    ∧ Bank.has ⟨true, #v[.filled, .reserved, .free, .free]⟩ .reserved = true := by decide +kernel
/-- A payload of 24 bytes and one of 25; a type held and one not held; a sum of 0 and another. -/
theorem wit_SidebandMessagesFillTheirSlots :
    ((focused ready).cch.left.intake = .between ∧ ((focused ready).cch.left.slot 1).type = 17)
    ∧ (List.replicate 24 (0 : Byte)).length ≤ 24 ∧ 24 < (List.replicate 25 (0 : Byte)).length
    ∧ (∀ i, ((focused ready).cch.left.slot i).type ≠ 18)
    ∧ (17 + 2 + (0xE2 + 0x04) + 0x07) % 256 = 0 ∧ ((focused ready).cch.left.slot 1).storeOnError = false
    ∧ ready.sideband.job = none
    ∧ (run .readSideband (ordered .readSideband)).sideband.job = some ⟨3, ⟨true, true⟩, ⟨true, true⟩⟩
    ∧ (∀ i : Fin 4, ((focused ready).cch.left.slots[i]).payload.length = 24)
    ∧ (taking .exposed .exposed (.discarding .spurned 9 4 2)).cch.left.intake
      = .discarding .spurned 9 4 2 := by decide +kernel

end Sys2Proof.Tests
end

section
/-! SUPPORT. The lock of the profile store (R17): what a LOAD TABLES installs and what an OPEN VOLUME fixes, as one
value of the state, which every shared operation leaves as it is. -/

namespace Sys2Proof.Machine

/-- The tables, the profile in force and the collection key. -/
structure TableLock where
  classes : List ClassEntry
  profiles : List Profile
  cradle : Cradle
  loaded : Bool
  profile : Option Nat
  key : Nat

/-- What R17 locks, as it stands in a state. Reducible, so that an update of another item shows that the value is
the same. -/
abbrev State.tableLock (s : State) : TableLock :=
  ⟨s.pfs.classes, s.pfs.profiles, s.pfs.cradle, s.pfs.loaded, s.vau.profile, s.vau.key⟩

/-- The locked value rests on the store and on two items of the account. -/
theorem State.tableLock_congr {s t : State} (hp : t.pfs = s.pfs) (hf : t.vau.profile = s.vau.profile)
    (hk : t.vau.key = s.vau.key) : t.tableLock = s.tableLock := by
  simp only [State.tableLock, hp, hf, hk]

theorem State.Issued.tableLock {s t : State} (h : State.Issued s t) : t.tableLock = s.tableLock :=
  State.tableLock_congr h.pfs (by rw [h.vau]) (by rw [h.vau])

theorem State.Banked.tableLock {s t : State} (h : State.Banked s t) : t.tableLock = s.tableLock :=
  State.tableLock_congr h.kept.pfs (by rw [h.vau]) (by rw [h.vau])

/-! ### Writes, notes and messages -/

@[simp] theorem State.issue_tableLock (s : State) (w : Writer) (a : Nat) (b : List Byte) :
    (s.issue w a b).tableLock = s.tableLock := rfl
@[simp] theorem State.answer_tableLock (s : State) (i : Fin 16) (k : AnswerCode) (f : List FieldVal) :
    (s.answer i k f).tableLock = s.tableLock := rfl
@[simp] theorem State.land_tableLock (s : State) (p : HostWrite → Bool) :
    (s.land p).tableLock = s.tableLock := rfl
@[simp] theorem State.landVau_tableLock (s : State) (n : Nat) : (s.landVau n).tableLock = s.tableLock := rfl
@[simp] theorem State.landBody_tableLock (s : State) (c : Chan) : (s.landBody c).tableLock = s.tableLock := rfl
@[simp] theorem State.raise_tableLock (s : State) (n : Note) : (s.raise n).tableLock = s.tableLock := rfl
@[simp] theorem State.toOcc_tableLock (s : State) (m : OccMsg) : (s.toOcc m).tableLock = s.tableLock := rfl
@[simp] theorem State.toLdu_tableLock (s : State) (m : LduMsg) : (s.toLdu m).tableLock = s.tableLock := rfl
@[simp] theorem State.toTsq_tableLock (s : State) (m : TsqMsg) : (s.toTsq m).tableLock = s.tableLock := rfl
@[simp] theorem State.toFbk_tableLock (s : State) (c : Chan) (m : FbkMsg) :
    (s.toFbk c m).tableLock = s.tableLock := rfl
@[simp] theorem State.setOcc_tableLock (s : State) (o : Occ) : (s.setOcc o).tableLock = s.tableLock := rfl
@[simp] theorem State.setWork_tableLock (s : State) (w : Work) : (s.setWork w).tableLock = s.tableLock := rfl
@[simp] theorem State.setTsq_tableLock (s : State) (q : Tsq) : (s.setTsq q).tableLock = s.tableLock := rfl
@[simp] theorem State.setLdu_tableLock (s : State) (l : Ldu) : (s.setLdu l).tableLock = s.tableLock := rfl
@[simp] theorem State.setCch_tableLock (s : State) (c : Chan) (x : Cch) :
    (s.setCch c x).tableLock = s.tableLock := rfl
@[simp] theorem State.setFbk_tableLock (s : State) (c : Chan) (f : Fbk) :
    (s.setFbk c f).tableLock = s.tableLock := rfl
@[simp] theorem State.report_tableLock (s : State) (j : Judgement) : (s.report j).tableLock = s.tableLock := rfl

theorem State.nextOrder_tableLock {s t : State} {o : Owner} {d : Dispatched} (h : s.nextOrder o = some (d, t)) :
    t.tableLock = s.tableLock := by rw [State.nextOrder_eq h]

theorem State.nextMsg_tableLock {s t : State} {f : Sender} {m : OccMsg} (h : s.nextMsg f = some (m, t)) :
    t.tableLock = s.tableLock := by rw [State.nextMsg_eq h]

theorem State.nextLdu_tableLock {s t : State} {m : LduMsg} (h : s.nextLdu = some (m, t)) :
    t.tableLock = s.tableLock := by
  unfold State.nextLdu at h
  split at h
  · cases h
  · cases h; rfl

/-! ### The account (R36) -/

/-- A change of the account that keeps the profile in force and the key keeps the locked value. -/
theorem State.changeAccount_tableLock (s : State) (f : Vau → Vau) (b : Bool)
    (hf : (f s.vau).profile = s.vau.profile) (hk : (f s.vau).key = s.vau.key) :
    (s.changeAccount f b).tableLock = s.tableLock := by
  rw [(State.changeAccount_eq s f b).1]; exact State.tableLock_congr rfl hf hk

@[simp] theorem State.abandonRetakes_tableLock (s : State) : s.abandonRetakes.tableLock = s.tableLock := by
  obtain ⟨m, h, hs, -⟩ := State.abandonRetakes_eq s
  rw [hs]

@[simp] theorem State.writeHeader_tableLock (s : State) : s.writeHeader.tableLock = s.tableLock := rfl
@[simp] theorem State.writeHeaderWhole_tableLock (s : State) (d : Nat) :
    (s.writeHeaderWhole d).tableLock = s.tableLock := rfl
@[simp] theorem State.writeCloseValid_tableLock (s : State) (n : Nat) :
    (s.writeCloseValid n).tableLock = s.tableLock := rfl
@[simp] theorem State.writeCloseFields_tableLock (s : State) (f : CloseFields) :
    (s.writeCloseFields f).tableLock = s.tableLock := rfl

/-! ### The frame banks (chapter 8) -/

@[simp] theorem State.handOver_tableLock (s : State) (c : Chan) (b : BankId) :
    (s.handOver c b).tableLock = s.tableLock := rfl
@[simp] theorem State.dropFbk_tableLock (s : State) (c : Chan) (l : List FbkMsg) :
    (s.dropFbk c l).tableLock = s.tableLock := rfl
@[simp] theorem State.releaseDesc_tableLock (s : State) (c : Chan) (b : BankId) (i : Fin 4) :
    (s.releaseDesc c b i).tableLock = s.tableLock := (State.releaseDesc_banked ..).tableLock
@[simp] theorem State.fillDesc_tableLock (s : State) (c : Chan) (b : BankId) (i : Fin 4) (r : Bool) :
    (s.fillDesc c b i r).tableLock = s.tableLock := (State.fillDesc_banked ..).tableLock
@[simp] theorem State.enterRest_tableLock (s : State) (v : VolState) :
    (s.enterRest v).tableLock = s.tableLock := (State.enterRest_banked s v).tableLock
@[simp] theorem State.activateA_tableLock (s : State) (c : Chan) : (s.activateA c).tableLock = s.tableLock := rfl

@[simp] theorem State.seek_tableLock (s : State) (c : Chan) : (s.seek c).tableLock = s.tableLock := by
  unfold State.seek
  dsimp only
  split <;> simp

@[simp] theorem State.grantOf_tableLock (s : State) (c : Chan) (a b : Bool) :
    (s.grantOf c a b).tableLock = s.tableLock := by rw [State.grantOf_eq]

/-! ### The light unit and the cameras (chapters 6 and 7) -/

@[simp] theorem State.notify_tableLock (s : State) (c : Chan) (n : Notice) :
    (s.notify c n).tableLock = s.tableLock := rfl

@[simp] theorem State.notifyAll_tableLock (s : State) (cs : ChanSet) (f : Chan → Notice) :
    (s.notifyAll cs f).tableLock = s.tableLock := by
  unfold State.notifyAll
  dsimp only
  split <;> split <;> rfl

@[simp] theorem State.charge_tableLock (s : State) (cs : ChanSet) (k : ExpClass) (d : DoseCase) :
    (s.charge cs k d).tableLock = s.tableLock := rfl

@[simp] theorem State.considerAdmission_tableLock (s : State) (cs : ChanSet) (k : ExpClass) :
    (s.considerAdmission cs k).tableLock = s.tableLock := by
  unfold State.considerAdmission
  dsimp only
  split <;> simp

@[simp] theorem State.beginStrobe_tableLock (s : State) (r : ExposureRec) :
    (s.beginStrobe r).tableLock = s.tableLock := rfl

@[simp] theorem State.fire_tableLock (s : State) (r : ExposureRec) : (s.fire r).tableLock = s.tableLock := by
  unfold State.fire
  split <;> simp

@[simp] theorem State.lampsOff_tableLock (s : State) : s.lampsOff.tableLock = s.tableLock := by
  unfold State.lampsOff
  dsimp only
  split <;> rfl

@[simp] theorem State.endStrobe_tableLock (s : State) (r : ExposureRec) (k : NoticeKind) (a : FireReply) :
    (s.endStrobe r k a).tableLock = s.tableLock := by simp [State.endStrobe]

@[simp] theorem State.clearLost_tableLock (s : State) (c : Chan) : (s.clearLost c).tableLock = s.tableLock := rfl
@[simp] theorem State.issueResult_tableLock (s : State) (c : Chan) (d : Reservation) (r : Result) :
    (s.issueResult c d r).tableLock = s.tableLock := rfl
@[simp] theorem State.arm_tableLock (s : State) (c : Chan) (q : ArmReq) : (s.arm c q).tableLock = s.tableLock := rfl

@[simp] theorem State.endFrame_tableLock (s : State) (c : Chan) (ok : Bool) :
    (s.endFrame c ok).tableLock = s.tableLock := by
  unfold State.endFrame
  dsimp only
  split
  · rfl
  · split <;> simp

@[simp] theorem State.startMark_tableLock (s : State) (c : Chan) : (s.startMark c).tableLock = s.tableLock := by
  unfold State.startMark
  dsimp only
  split <;> simp

@[simp] theorem State.takeByte_tableLock (s : State) (c : Chan) (b : Byte) :
    (s.takeByte c b).tableLock = s.tableLock := by
  unfold State.takeByte
  dsimp only
  split
  · split <;> simp
  · rfl

@[simp] theorem State.loseTake_tableLock (s : State) (c : Chan) (t : TakeRec) :
    (s.loseTake c t).tableLock = s.tableLock := by
  unfold State.loseTake
  dsimp only
  split <;> simp

@[simp] theorem State.cutTake_tableLock (s : State) (c : Chan) (t : TakeRec) :
    (s.cutTake c t).tableLock = s.tableLock := by simp [State.cutTake]

@[simp] theorem State.numberResult_tableLock (s : State) (c : Chan) (n : Nat) :
    (s.numberResult c n).tableLock = s.tableLock := by
  unfold State.numberResult
  dsimp only
  split
  · split <;> simp
  · rfl

@[simp] theorem State.resyncChannel_tableLock (s : State) (c : Chan) :
    (s.resyncChannel c).tableLock = s.tableLock := by
  unfold State.resyncChannel
  dsimp only
  split <;> simp

@[simp] theorem State.setUp_tableLock (s : State) (d : Nat) : (s.setUp d).tableLock = s.tableLock := by
  simp [State.setUp]

/-! ### The turn sequencer (chapter 5) -/

@[simp] theorem State.settle_tableLock (s : State) (b : Bool) : (s.settle b).tableLock = s.tableLock := by
  unfold State.settle
  split <;> rfl

@[simp] theorem State.answerTurn_tableLock (s : State) (r : TurnReply) :
    (s.answerTurn r).tableLock = s.tableLock := rfl
@[simp] theorem State.stallTurn_tableLock (s : State) : s.stallTurn.tableLock = s.tableLock := rfl
@[simp] theorem State.holdArm_tableLock (s : State) : s.holdArm.tableLock = s.tableLock := rfl
@[simp] theorem State.cutArm_tableLock (s : State) : s.cutArm.tableLock = s.tableLock := rfl

@[simp] theorem State.finishDown_tableLock (s : State) : s.finishDown.tableLock = s.tableLock := by
  unfold State.finishDown
  split
  · rfl
  · split
    · rfl
    · split <;> rfl
  · rfl

@[simp] theorem State.arriveDown_tableLock (s : State) (p : Platen) : (s.arriveDown p).tableLock = s.tableLock := by
  simp [State.arriveDown]

@[simp] theorem State.beginPlatenDown_tableLock (s : State) : s.beginPlatenDown.tableLock = s.tableLock := by
  unfold State.beginPlatenDown
  dsimp only
  split
  · simp
  · split <;> simp

@[simp] theorem State.failAttempt_tableLock (s : State) (r : Nat) (x : LiftReading) :
    (s.failAttempt r x).tableLock = s.tableLock := State.changeAccount_tableLock _ _ _ rfl rfl

@[simp] theorem State.dropLeaf_tableLock (s : State) (r : Nat) : (s.dropLeaf r).tableLock = s.tableLock :=
  State.changeAccount_tableLock (State.holdArm _) _ _ rfl rfl

@[simp] theorem State.armStall_tableLock (s : State) : s.armStall.tableLock = s.tableLock := by
  unfold State.armStall
  split <;> simp

@[simp] theorem State.platenStall_tableLock (s : State) : s.platenStall.tableLock = s.tableLock := by
  unfold State.platenStall
  dsimp only
  split <;> simp

@[simp] theorem State.stageExpired_tableLock (s : State) : s.stageExpired.tableLock = s.tableLock := by
  unfold State.stageExpired
  split
  · simp
  · simp
  · simp
  · split <;> simp
  · simp

@[simp] theorem State.acceptTurn_tableLock (s : State) (c : Nat) : (s.acceptTurn c).tableLock = s.tableLock := rfl

@[simp] theorem State.stopTurn_tableLock (s : State) (g : Stage) : (s.stopTurn g).tableLock = s.tableLock := by
  unfold State.stopTurn
  split
  case h_7 => split <;> rfl
  all_goals simp

@[simp] theorem State.endRelease_tableLock (s : State) (r : Nat) : (s.endRelease r).tableLock = s.tableLock := by
  unfold State.endRelease
  split <;> rfl

@[simp] theorem State.park_tableLock (s : State) (i : Fin 16) (r : Bool) : (s.park i r).tableLock = s.tableLock := by
  unfold State.park
  dsimp only
  split
  · rfl
  · split
    · rfl
    · split
      · rfl
      · split <;> split <;> rfl

@[simp] theorem State.armRestore_tableLock (s : State) (i : Fin 16) :
    (s.armRestore i).tableLock = s.tableLock := by
  unfold State.armRestore
  split
  · rfl
  · split <;> rfl

/-! ### The opening cycle (chapter 4) -/

@[simp] theorem State.releaseHeldOf_tableLock (s : State) (c : Chan) :
    (s.releaseHeldOf c).tableLock = s.tableLock := by rw [State.releaseHeldOf_eq]

@[simp] theorem State.releaseHeld_tableLock (s : State) : s.releaseHeld.tableLock = s.tableLock := by
  simp [State.releaseHeld]

@[simp] theorem State.askRelease_tableLock (s : State) (c : Chan) : (s.askRelease c).tableLock = s.tableLock := by
  unfold State.askRelease
  split <;> simp

@[simp] theorem State.answerStops_tableLock (s : State) : s.answerStops.tableLock = s.tableLock :=
  (State.answerStops_issued s).tableLock

@[simp] theorem State.endOrder_tableLock (s : State) (k : AnswerCode) (f : List FieldVal) (v : VolState) :
    (s.endOrder k f v).tableLock = s.tableLock := by
  unfold State.endOrder
  split <;> simp

@[simp] theorem State.endDone_tableLock (s : State) (f : List FieldVal) : (s.endDone f).tableLock = s.tableLock := by
  simp [State.endDone]

@[simp] theorem State.endStopped_tableLock (s : State) : s.endStopped.tableLock = s.tableLock := by
  unfold State.endStopped
  dsimp only
  split <;> simp

@[simp] theorem State.pauseAt_tableLock (s : State) (r : Reason) (e b : Nat) :
    (s.pauseAt r e b).tableLock = s.tableLock := by
  unfold State.pauseAt
  have h : s.releaseHeld.abandonRetakes.tableLock = s.tableLock := by simp
  dsimp only
  split
  · rw [State.endOrder_tableLock]; exact h
  · rw [State.endOrder_tableLock]; exact h

@[simp] theorem State.pause_tableLock (s : State) (r : Reason) (b : Nat) : (s.pause r b).tableLock = s.tableLock :=
  State.pauseAt_tableLock ..

@[simp] theorem State.requestTurn_tableLock (s : State) : s.requestTurn.tableLock = s.tableLock := by
  unfold State.requestTurn
  split <;> simp

@[simp] theorem State.reserveOn_tableLock (s : State) (x : Exposure) (c : Chan) :
    (s.reserveOn x c).tableLock = s.tableLock := rfl
@[simp] theorem State.askAdmission_tableLock (s : State) (x : Exposure) :
    (s.askAdmission x).tableLock = s.tableLock := rfl
@[simp] theorem State.accept_tableLock (s : State) (i : Fin 16) (k : CycleKind) (n : ChanSet) (l : Nat) :
    (s.accept i k n l).tableLock = s.tableLock := rfl
@[simp] theorem State.askFire_tableLock (s : State) (x : Exposure) : (s.askFire x).tableLock = s.tableLock := rfl

@[simp] theorem State.phaseEnd_tableLock (s : State) : s.phaseEnd.tableLock = s.tableLock := by
  unfold State.phaseEnd
  repeat' split
  all_goals simp

@[simp] theorem State.runTodo_tableLock (s : State) (l : List Exposure) : (s.runTodo l).tableLock = s.tableLock := by
  induction l with
  | nil => simp [State.runTodo]
  | cons x l ih =>
    unfold State.runTodo
    dsimp only
    repeat' split
    all_goals simp [ih]

@[simp] theorem State.goOn_tableLock (s : State) (p : Bool) : (s.goOn p).tableLock = s.tableLock := by
  unfold State.goOn
  dsimp only
  split <;> simp

@[simp] theorem State.afterJudged_tableLock (s : State) : s.afterJudged.tableLock = s.tableLock := by
  unfold State.afterJudged
  split
  · split <;> simp
  · rfl

@[simp] theorem State.pollWait_tableLock (s : State) : s.pollWait.tableLock = s.tableLock := by
  unfold State.pollWait
  split
  · split <;> simp
  · rfl

@[simp] theorem State.checkInterlock_tableLock (s : State) (l : List Exposure) :
    (s.checkInterlock l).tableLock = s.tableLock := by
  unfold State.checkInterlock
  split
  · simp
  · split <;> simp

@[simp] theorem State.startPhase_tableLock (s : State) : s.startPhase.tableLock = s.tableLock := by
  unfold State.startPhase State.runPhase
  split <;> simp

@[simp] theorem State.stopWork_tableLock (s : State) : s.stopWork.tableLock = s.tableLock := by
  unfold State.stopWork
  split <;> simp

theorem State.cycleOrder_tableLock (s : State) (i : Fin 16) (f : State → State)
    (hf : (f s).tableLock = s.tableLock) : (s.cycleOrder i f).tableLock = s.tableLock := by
  unfold State.cycleOrder
  split
  · rfl
  · exact hf

@[simp] theorem State.turnOrder_tableLock (s : State) (i : Fin 16) : (s.turnOrder i).tableLock = s.tableLock := by
  unfold State.turnOrder
  dsimp only
  split
  · rfl
  · split <;> simp

@[simp] theorem State.retakeOrder_tableLock (s : State) (i : Fin 16) (e : Nat) (d : Side) (p : Nat) :
    (s.retakeOrder i e d p).tableLock = s.tableLock := by
  unfold State.retakeOrder
  split
  · rfl
  · split <;> simp

@[simp] theorem State.stopOrder_tableLock (s : State) (i : Fin 16) : (s.stopOrder i).tableLock = s.tableLock := by
  unfold State.stopOrder
  split
  · rfl
  · split <;> simp

@[simp] theorem State.reserved_tableLock (s : State) (x : Exposure) (c : Chan) (r : Reservation) :
    (s.reserved x c r).tableLock = s.tableLock := by
  unfold State.reserved
  dsimp only
  split
  · simp
  · split
    · split <;> simp
    · simp

@[simp] theorem State.noRoom_tableLock (s : State) (x : Exposure) (c : Chan) :
    (s.noRoom x c).tableLock = s.tableLock := by
  unfold State.noRoom
  split <;> simp

@[simp] theorem State.released_tableLock (s : State) (c : Chan) : (s.released c).tableLock = s.tableLock := by
  unfold State.released
  dsimp only
  split <;> simp

@[simp] theorem State.sendArm_tableLock (s : State) (c : Chan) (n : Nat) : (s.sendArm c n).tableLock = s.tableLock := by
  unfold State.sendArm
  split <;> rfl

@[simp] theorem State.askArms_tableLock (s : State) (x : Exposure) (n : Nat) :
    (s.askArms x n).tableLock = s.tableLock := by
  unfold State.askArms
  dsimp only
  split <;> split <;> simp

@[simp] theorem State.applyWithhold_tableLock (s : State) (x : Exposure) (c : Chan) :
    (s.applyWithhold x c).tableLock = s.tableLock := State.changeAccount_tableLock _ _ _ rfl rfl

@[simp] theorem State.admissionAnswer_tableLock (s : State) (x : Exposure) (a : AdmissionReply) :
    (s.admissionAnswer x a).tableLock = s.tableLock := by
  cases a with
  | admitted | split | withheld | doseLimit =>
    simp only [State.admissionAnswer]
    split <;> simp
  | abandoned | busy => simp [State.admissionAnswer]

@[simp] theorem State.armedAnswer_tableLock (s : State) (x : Exposure) (a b : ChanSet) (c : Chan) (ok : Bool) :
    (s.armedAnswer x a b c ok).tableLock = s.tableLock := by
  unfold State.armedAnswer State.afterArmed
  dsimp only
  repeat' split
  all_goals simp

@[simp] theorem State.fireAnswer_tableLock (s : State) (x : Exposure) (a : FireReply) :
    (s.fireAnswer x a).tableLock = s.tableLock := by
  cases a with
  | strobeEnd | notReady =>
    simp only [State.fireAnswer]
    repeat' split
    all_goals simp
  | aborted | notAdmitted => simp [State.fireAnswer]

@[simp] theorem State.turned_tableLock (s : State) (r : Nat) : (s.turned r).tableLock = s.tableLock := by
  have h : (s.changeAccount (fun v => v.moveCursor r)).tableLock = s.tableLock :=
    State.changeAccount_tableLock _ _ _ rfl rfl
  unfold State.turned
  dsimp only
  repeat' split
  all_goals simp [h]

@[simp] theorem State.turnCompletion_tableLock (s : State) (a : TurnReply) :
    (s.turnCompletion a).tableLock = s.tableLock := by
  cases a with
  | armNotReady =>
    simp only [State.turnCompletion]
    split <;> simp
  | turned | failed | stopped => simp [State.turnCompletion]

@[simp] theorem State.cameraFault_tableLock (s : State) : s.cameraFault.tableLock = s.tableLock := by
  unfold State.cameraFault
  split
  · rfl
  · split <;> simp

@[simp] theorem State.applyJudgement_tableLock (s : State) (j : Judgement) :
    (s.applyJudgement j).tableLock = s.tableLock := by
  unfold State.applyJudgement
  dsimp only
  split
  · split
    · rw [State.clearLost_tableLock, State.numberResult_tableLock]
      exact State.changeAccount_tableLock _ _ _ rfl rfl
    · rw [State.clearLost_tableLock, State.numberResult_tableLock]
      exact State.changeAccount_tableLock _ _ _ rfl rfl
  · split
    · rw [State.setOcc_tableLock]
      exact State.changeAccount_tableLock _ _ _ rfl rfl
    · exact State.changeAccount_tableLock _ _ _ rfl rfl

/-! ### The orders of VAU and PFS (chapters 1 to 3) -/

@[simp] theorem State.startOpens_tableLock (s : State) (l : List (Fin 16)) :
    (s.startOpens l).tableLock = s.tableLock := by
  induction l generalizing s with
  | nil => rfl
  | cons i l ih =>
    unfold State.startOpens
    split
    · rfl
    · rw [ih]; rfl

@[simp] theorem State.endOpen_tableLock (s : State) (i : Fin 16) (k : AnswerCode) (f : List FieldVal) :
    (s.endOpen i k f).tableLock = s.tableLock := by simp [State.endOpen]

@[simp] theorem State.startLoads_tableLock (s : State) (l : List (Fin 16)) :
    (s.startLoads l).tableLock = s.tableLock := by
  induction l generalizing s with
  | nil => rfl
  | cons i l ih =>
    unfold State.startLoads
    split
    · rfl
    · rw [ih]; rfl

@[simp] theorem State.endLoad_tableLock (s : State) (i : Fin 16) (k : AnswerCode) (f : List FieldVal) :
    (s.endLoad i k f).tableLock = s.tableLock := by simp [State.endLoad]

@[simp] theorem State.resume_tableLock (s : State) (i : Fin 16) (h : HeaderRead) (b : List Byte) :
    (s.resume i h b).tableLock = s.tableLock := by
  unfold State.resume
  dsimp only
  rw [State.writeHeaderWhole_tableLock]
  exact (State.foldl_issued _ (fun _ _ => State.writeEntryWhole_issued ..) _ _).tableLock

@[simp] theorem State.amend_tableLock (s : State) (i : Fin 16) (e k : Nat) :
    (s.amend i e k).tableLock = s.tableLock := by
  have h (k : Kind) : (s.changeAccount (fun v => v.amend e k) true).tableLock = s.tableLock :=
    State.changeAccount_tableLock _ _ _ rfl rfl
  unfold State.amend
  dsimp only
  repeat' split
  all_goals first | rfl | exact h _

@[simp] theorem State.acceptHandDone_tableLock (s : State) (i : Fin 16) (step : HandStep) (c : Nat) :
    (s.acceptHandDone i step c).tableLock = s.tableLock := by
  have h : (s.vau.handStepDone step c).profile = s.vau.profile ∧ (s.vau.handStepDone step c).key = s.vau.key := by
    unfold Vau.handStepDone
    split <;> exact ⟨rfl, rfl⟩
  unfold State.acceptHandDone
  rw [State.enterRest_tableLock]
  exact State.changeAccount_tableLock _ _ _ h.1 h.2

@[simp] theorem State.handDone_tableLock (s : State) (i : Fin 16) (r c : Nat) :
    (s.handDone i r c).tableLock = s.tableLock := by
  unfold State.handDone
  repeat' split
  all_goals simp

@[simp] theorem State.closeVolume_tableLock (s : State) (i : Fin 16) (f : Bool) :
    (s.closeVolume i f).tableLock = s.tableLock := by
  unfold State.closeVolume
  repeat' split
  all_goals rfl

@[simp] theorem State.closingStep_tableLock (s : State) (j : CloseJob) (k : Nat) :
    (s.closingStep j k).tableLock = s.tableLock := rfl

end Sys2Proof.Machine
end

section
/-! SUPPORT. The lock of the profile store, command by command (R17): every command keeps the locked value but the
resets, the install of LOAD TABLES, the plan read of OPEN VOLUME and the end of CLOSING, and none of these begins
and ends with a volume open. -/

namespace Sys2Proof.Machine

/-! ### The commands that keep the locked value in every state -/

section Commands
variable {s t : State}

/-- The end of an event at the sequencer adds only the fall of the interlock signal (R80). -/
theorem State.tsqNext_tableLock {a : State} (h : s.tsqNext a = .next t) (ha : a.tableLock = s.tableLock) :
    t.tableLock = s.tableLock := by
  rw [← next_inj h, State.settle_tableLock, ha]

/-! The exchange port (chapter 10). -/

theorem execPost_tableLock {v : Word32} (h : execPost v s = .next t) : t.tableLock = s.tableLock := by
  rw [← next_inj h]

theorem execAck_tableLock {v : Word32} (h : execAck v s = .next t) : t.tableLock = s.tableLock := by
  rw [← next_inj h]

theorem execNoteClear_tableLock {v : Word32} (h : execNoteClear v s = .next t) : t.tableLock = s.tableLock := by
  rw [← next_inj h]

theorem execNoteMaskWrite_tableLock {v : Word32} (h : execNoteMaskWrite v s = .next t) :
    t.tableLock = s.tableLock := by rw [← next_inj h]

theorem execBaseWrite_tableLock {v : Word32} (h : execBaseWrite v s = .next t) : t.tableLock = s.tableLock := by
  rw [← next_inj h]

theorem execGrant_tableLock {v : Word32} (h : execGrant v s = .next t) : t.tableLock = s.tableLock := by
  rw [← next_inj h]; simp

theorem execSlotReadComplete_tableLock {b : List Byte} (h : execSlotReadComplete b s = .next t) :
    t.tableLock = s.tableLock := by
  rw [← next_inj h]
  split
  · rfl
  · dsimp only
    split <;> rfl

theorem execAnswerWriteComplete_tableLock {i : Fin 16} (h : execAnswerWriteComplete i s = .next t) :
    t.tableLock = s.tableLock := by
  rw [← next_inj h]
  split <;> rfl

/-! LOAD TABLES and the side band (chapters 1 and 9). -/

theorem execLoadTables_tableLock (h : execLoadTables s = .next t) : t.tableLock = s.tableLock := by
  rw [← next_inj h]
  split
  · rfl
  · have k := State.nextOrder_tableLock ‹_›
    split
    · exact k
    · rw [State.startLoads_tableLock, k]

theorem execSidebandSlotsClear_tableLock {c : Chan} (h : execSidebandSlotsClear c s = .next t) :
    t.tableLock = s.tableLock := by
  rw [← next_inj h]
  split
  · split
    · dsimp only
      split <;> simp
    · rfl
  · rfl

theorem execSideband_tableLock {c : Chan} {ty k : Byte} {p : List Byte} (h : execSideband c ty p k s = .next t) :
    t.tableLock = s.tableLock := by
  rw [← next_inj h]
  split <;> simp

theorem execSidebandMalformed_tableLock {c : Chan} {ty n : Byte} (h : execSidebandMalformed c ty n s = .next t) :
    t.tableLock = s.tableLock := by
  rw [← next_inj h, State.startMark_tableLock]

theorem execReadSideband_tableLock (h : execReadSideband s = .next t) : t.tableLock = s.tableLock := by
  rw [← next_inj h]
  split
  · rfl
  · have k := State.nextOrder_tableLock ‹_›
    split <;> exact k

theorem execSidebandCopy_tableLock {c : Chan} (h : execSidebandCopy c s = .next t) :
    t.tableLock = s.tableLock := by
  rw [← next_inj h]
  split
  · split <;> rfl
  · rfl

theorem execSidebandReportWritten_tableLock {c : Chan} (h : execSidebandReportWritten c s = .next t) :
    t.tableLock = s.tableLock := by
  rw [← next_inj h]
  split
  · split
    · dsimp only
      split <;> rfl
    · rfl
  · rfl

/-! The orders of the volume that install nothing (chapters 2 and 3). -/

theorem execOpenVolume_tableLock (h : execOpenVolume s = .next t) : t.tableLock = s.tableLock := by
  rw [← next_inj h]
  split
  · have k := State.nextOrder_tableLock ‹_›
    split
    · exact k
    · rw [State.startOpens_tableLock, k]
  · rfl

theorem execSheetHeaderRead_tableLock {b : List Byte} (h : execSheetHeaderRead b s = .next t) :
    t.tableLock = s.tableLock := by
  rw [← next_inj h]
  split
  · dsimp only
    split
    · rfl
    · simp
  · rfl

theorem execLedgerReadComplete_tableLock {b e : List Byte} (h : execLedgerReadComplete b e s = .next t) :
    t.tableLock = s.tableLock := by
  rw [← next_inj h]
  split
  · simp
  · rfl

theorem execOpeningWritesComplete_tableLock (h : execOpeningWritesComplete s = .next t) :
    t.tableLock = s.tableLock := by
  rw [← next_inj h]
  split
  · simp
  · rfl

theorem execAmend_tableLock (h : execAmend s = .next t) : t.tableLock = s.tableLock := by
  rw [← next_inj h]
  split
  · exact (State.amend_tableLock ..).trans (State.nextOrder_tableLock ‹_›)
  · rfl

theorem execAmendWritesComplete_tableLock (h : execAmendWritesComplete s = .next t) :
    t.tableLock = s.tableLock := by
  rw [← next_inj h]
  split <;> rfl

theorem execHandDone_tableLock (h : execHandDone s = .next t) : t.tableLock = s.tableLock := by
  rw [← next_inj h]
  split
  · exact (State.handDone_tableLock ..).trans (State.nextOrder_tableLock ‹_›)
  · rfl

theorem execHandDoneWritesComplete_tableLock (h : execHandDoneWritesComplete s = .next t) :
    t.tableLock = s.tableLock := by
  rw [← next_inj h]
  split <;> rfl

theorem execCloseVolume_tableLock (h : execCloseVolume s = .next t) : t.tableLock = s.tableLock := by
  rw [← next_inj h]
  split
  · exact (State.closeVolume_tableLock ..).trans (State.nextOrder_tableLock ‹_›)
  · rfl

/-! The opening cycle (chapter 4). -/

theorem execAdvance_tableLock (h : execAdvance s = .next t) : t.tableLock = s.tableLock := by
  rw [← next_inj h]
  split
  · exact (State.cycleOrder_tableLock _ _ _ (by simp)).trans (State.nextOrder_tableLock ‹_›)
  · rfl

theorem execCapture_tableLock (h : execCapture s = .next t) : t.tableLock = s.tableLock := by
  rw [← next_inj h]
  split
  · exact (State.cycleOrder_tableLock _ _ _ (by simp)).trans (State.nextOrder_tableLock ‹_›)
  · rfl

theorem execTurn_tableLock (h : execTurn s = .next t) : t.tableLock = s.tableLock := by
  rw [← next_inj h]
  split
  · exact (State.cycleOrder_tableLock _ _ _ (by simp)).trans (State.nextOrder_tableLock ‹_›)
  · rfl

theorem execRetake_tableLock (h : execRetake s = .next t) : t.tableLock = s.tableLock := by
  rw [← next_inj h]
  split
  · exact (State.cycleOrder_tableLock _ _ _ (by simp)).trans (State.nextOrder_tableLock ‹_›)
  · rfl

theorem execStop_tableLock (h : execStop s = .next t) : t.tableLock = s.tableLock := by
  rw [← next_inj h]
  split
  · exact (State.stopOrder_tableLock ..).trans (State.nextOrder_tableLock ‹_›)
  · rfl

theorem execReservationAnswer_tableLock {c : Chan} (h : execReservationAnswer c s = .next t) :
    t.tableLock = s.tableLock := by
  rw [← next_inj h]
  split
  · have k := State.nextMsg_tableLock ‹_›
    split
    · split <;> simp [k]
    · exact k
  · have k := State.nextMsg_tableLock ‹_›
    split
    · split <;> simp [k]
    · exact k
  · exact State.nextMsg_tableLock ‹_›
  · exact (State.released_tableLock ..).trans (State.nextMsg_tableLock ‹_›)
  · rfl

theorem execGrantReport_tableLock {c : Chan} (h : execGrantReport c s = .next t) :
    t.tableLock = s.tableLock := by
  rw [← next_inj h]
  split
  · have k := State.nextMsg_tableLock ‹_›
    repeat' split
    all_goals simp [k]
  · rfl

theorem execRoomWatchExpiry_tableLock (h : execRoomWatchExpiry s = .next t) : t.tableLock = s.tableLock := by
  rw [← next_inj h]
  split
  · split <;> simp
  · rfl

theorem execAdmissionAnswer_tableLock (h : execAdmissionAnswer s = .next t) : t.tableLock = s.tableLock := by
  rw [← next_inj h]
  split
  · have k := State.nextMsg_tableLock ‹_›
    split <;> simp [k]
  · rfl

theorem execArmedAnswer_tableLock {c : Chan} (h : execArmedAnswer c s = .next t) :
    t.tableLock = s.tableLock := by
  rw [← next_inj h]
  split
  · have k := State.nextMsg_tableLock ‹_›
    split <;> simp [k]
  · rfl

theorem execFireAnswer_tableLock (h : execFireAnswer s = .next t) : t.tableLock = s.tableLock := by
  rw [← next_inj h]
  split
  · have k := State.nextMsg_tableLock ‹_›
    split <;> simp [k]
  · rfl

theorem execCancelAnswer_tableLock (h : execCancelAnswer s = .next t) : t.tableLock = s.tableLock := by
  rw [← next_inj h]
  split
  · have k := State.nextMsg_tableLock ‹_›
    split <;> simp [k]
  · rfl

theorem execPlatenCompletion_tableLock (h : execPlatenCompletion s = .next t) : t.tableLock = s.tableLock := by
  rw [← next_inj h]
  split
  · have k := State.nextMsg_tableLock ‹_›
    repeat' split
    all_goals simp [k]
  · rfl

theorem execTurnCompletion_tableLock (h : execTurnCompletion s = .next t) : t.tableLock = s.tableLock := by
  rw [← next_inj h]
  split
  · have k := State.nextMsg_tableLock ‹_›
    split <;> simp [k]
  · rfl

theorem execLampFaultReport_tableLock (h : execLampFaultReport s = .next t) : t.tableLock = s.tableLock := by
  rw [← next_inj h]
  split
  · have k := State.nextMsg_tableLock ‹_›
    split <;> simp [k]
  · rfl

theorem execCameraFaultReport_tableLock {c : Chan} (h : execCameraFaultReport c s = .next t) :
    t.tableLock = s.tableLock := by
  rw [← next_inj h]
  split
  · exact (State.cameraFault_tableLock _).trans (State.nextMsg_tableLock ‹_›)
  · rfl

theorem execJudgementTaken_tableLock {c : Chan} (h : execJudgementTaken c s = .next t) :
    t.tableLock = s.tableLock := by
  rw [← next_inj h]
  split
  · rfl
  · simp

/-! The light unit (chapter 6). -/

theorem execAdmissionRequest_tableLock (h : execAdmissionRequest s = .next t) : t.tableLock = s.tableLock := by
  rw [← next_inj h]
  split
  · have k := State.nextLdu_tableLock ‹_›
    split <;> simp [k]
  · rfl

theorem execChargeWritesComplete_tableLock (h : execChargeWritesComplete s = .next t) :
    t.tableLock = s.tableLock := by
  rw [← next_inj h]
  split
  · dsimp only
    split <;> simp
  · rfl

theorem execAbandonRequest_tableLock (h : execAbandonRequest s = .next t) : t.tableLock = s.tableLock := by
  rw [← next_inj h]
  split
  · have k := State.nextLdu_tableLock ‹_›
    split <;> simp [k]
  · rfl

theorem execFireRequest_tableLock (h : execFireRequest s = .next t) : t.tableLock = s.tableLock := by
  rw [← next_inj h]
  split
  · have k := State.nextLdu_tableLock ‹_›
    split <;> simp [k]
  · rfl

theorem execStrobeEnd_tableLock (h : execStrobeEnd s = .next t) : t.tableLock = s.tableLock := by
  rw [← next_inj h]
  split
  · simp
  · rfl

theorem execCancelRequest_tableLock (h : execCancelRequest s = .next t) : t.tableLock = s.tableLock := by
  rw [← next_inj h]
  split
  · have k := State.nextLdu_tableLock ‹_›
    split <;> simp [k]
  · rfl

theorem execAbortRequest_tableLock (h : execAbortRequest s = .next t) : t.tableLock = s.tableLock := by
  rw [← next_inj h]
  split
  · have k := State.nextLdu_tableLock ‹_›
    split <;> simp [k]
  · rfl

theorem execInterlockFall_tableLock (h : execInterlockFall s = .next t) : t.tableLock = s.tableLock := by
  rw [← next_inj h]
  split
  · split <;> simp
  · rfl

theorem execOpenStringSense_tableLock {b : Fin 4} (h : execOpenStringSense b s = .next t) :
    t.tableLock = s.tableLock := by
  rw [← next_inj h]
  split
  · split <;> simp
  · rfl

/-! The turn sequencer (chapter 5). -/

theorem execTurnRequest_tableLock (h : execTurnRequest s = .next t) : t.tableLock = s.tableLock := by
  refine State.tsqNext_tableLock h ?_
  split
  · dsimp only
    split <;> simp
  · rfl

theorem execPlatenRequest_tableLock (h : execPlatenRequest s = .next t) : t.tableLock = s.tableLock := by
  refine State.tsqNext_tableLock h ?_
  split
  · split <;> simp
  · rfl

theorem execTsqStop_tableLock (h : execTsqStop s = .next t) : t.tableLock = s.tableLock := by
  refine State.tsqNext_tableLock h ?_
  split
  · dsimp only
    split <;> simp
  · rfl

theorem execUpSwitchCloses_tableLock (h : execUpSwitchCloses s = .next t) : t.tableLock = s.tableLock :=
  State.tsqNext_tableLock h rfl

theorem execUpSwitchOpens_tableLock (h : execUpSwitchOpens s = .next t) : t.tableLock = s.tableLock :=
  State.tsqNext_tableLock h rfl

theorem execDownSwitchCloses_tableLock (h : execDownSwitchCloses s = .next t) : t.tableLock = s.tableLock := by
  refine State.tsqNext_tableLock h ?_
  split <;> simp

theorem execDownSwitchOpens_tableLock (h : execDownSwitchOpens s = .next t) : t.tableLock = s.tableLock :=
  State.tsqNext_tableLock h rfl

theorem execPressureReading_tableLock {n : Fin 1024} (h : execPressureReading n s = .next t) :
    t.tableLock = s.tableLock := by
  refine State.tsqNext_tableLock h ?_
  split <;> simp

theorem execEdgeReached_tableLock (h : execEdgeReached s = .next t) : t.tableLock = s.tableLock := by
  refine State.tsqNext_tableLock h ?_
  split <;> rfl

theorem execBurstEnd_tableLock (h : execBurstEnd s = .next t) : t.tableLock = s.tableLock := by
  refine State.tsqNext_tableLock h ?_
  split <;> rfl

theorem execVacuumSwitchCloses_tableLock (h : execVacuumSwitchCloses s = .next t) :
    t.tableLock = s.tableLock := by
  refine State.tsqNext_tableLock h ?_
  split <;> rfl

theorem execVacuumSwitchOpens_tableLock (h : execVacuumSwitchOpens s = .next t) :
    t.tableLock = s.tableLock := by
  refine State.tsqNext_tableLock h ?_
  split <;> simp

theorem execReadSettled_tableLock {r : LeafReading} (h : execReadSettled r s = .next t) :
    t.tableLock = s.tableLock := by
  refine State.tsqNext_tableLock h ?_
  split
  · split <;> simp
  · rfl

theorem execSweepEnd_tableLock (h : execSweepEnd s = .next t) : t.tableLock = s.tableLock := by
  refine State.tsqNext_tableLock h ?_
  split <;> rfl

theorem execParkSwitchCloses_tableLock (h : execParkSwitchCloses s = .next t) :
    t.tableLock = s.tableLock := by
  refine State.tsqNext_tableLock h ?_
  split
  case h_4 => split <;> rfl
  all_goals simp

theorem execParkSwitchOpens_tableLock (h : execParkSwitchOpens s = .next t) : t.tableLock = s.tableLock :=
  State.tsqNext_tableLock h rfl

theorem execRetryWindowExpiry_tableLock (h : execRetryWindowExpiry s = .next t) :
    t.tableLock = s.tableLock := by
  refine State.tsqNext_tableLock h ?_
  split <;> rfl

theorem execStageWatchExpiry_tableLock (h : execStageWatchExpiry s = .next t) : t.tableLock = s.tableLock := by
  refine State.tsqNext_tableLock h ?_
  split <;> simp

theorem execCutDelayExpiry_tableLock (h : execCutDelayExpiry s = .next t) : t.tableLock = s.tableLock := by
  refine State.tsqNext_tableLock h ?_
  split <;> simp

theorem execPark_tableLock (h : execPark s = .next t) : t.tableLock = s.tableLock := by
  refine State.tsqNext_tableLock h ?_
  split
  · exact (State.park_tableLock ..).trans (State.nextOrder_tableLock ‹_›)
  · rfl

theorem execArmRestore_tableLock (h : execArmRestore s = .next t) : t.tableLock = s.tableLock := by
  refine State.tsqNext_tableLock h ?_
  split
  · exact (State.armRestore_tableLock ..).trans (State.nextOrder_tableLock ‹_›)
  · rfl

/-! The frame banks (chapter 8). -/

theorem execReservationRequest_tableLock {c : Chan} (h : execReservationRequest c s = .next t) :
    t.tableLock = s.tableLock := by
  rw [← next_inj h]
  split
  · dsimp only
    split <;> simp
  · rfl

theorem execDescriptorReadComplete_tableLock {c : Chan} {b : List Byte}
    (h : execDescriptorReadComplete c b s = .next t) : t.tableLock = s.tableLock := by
  rw [← next_inj h]
  dsimp only
  split
  · split <;> simp
  · rfl

theorem execUnusableWriteComplete_tableLock {c : Chan} (h : execUnusableWriteComplete c s = .next t) :
    t.tableLock = s.tableLock := by
  rw [← next_inj h]
  split
  · simp
  · rfl

theorem execReleaseRequest_tableLock {c : Chan} (h : execReleaseRequest c s = .next t) :
    t.tableLock = s.tableLock := by
  rw [← next_inj h]
  split
  · simp
  · rfl

theorem execDescriptorFilled_tableLock {c : Chan} (h : execDescriptorFilled c s = .next t) :
    t.tableLock = s.tableLock := by
  rw [← next_inj h]
  split
  · dsimp only
    split <;> simp
  · rfl

/-! The camera channels (chapter 7). -/

theorem execArmRequest_tableLock {c : Chan} (h : execArmRequest c s = .next t) : t.tableLock = s.tableLock := by
  rw [← next_inj h]
  split
  · rfl
  · dsimp only
    split <;> simp

theorem execEndOfExposureNotice_tableLock {c : Chan} (h : execEndOfExposureNotice c s = .next t) :
    t.tableLock = s.tableLock := by
  rw [← next_inj h]
  dsimp only
  split
  · rfl
  · split <;> simp

theorem execFrameHeader_tableLock {c : Chan} {i : BitVec 16} {n : Word32} (h : execFrameHeader c i n s = .next t) :
    t.tableLock = s.tableLock := by
  rw [← next_inj h]; simp

theorem execBodyByte_tableLock {c : Chan} {b : Byte} (h : execBodyByte c b s = .next t) :
    t.tableLock = s.tableLock := by
  rw [← next_inj h]
  dsimp only
  split
  · split <;> simp
  · split <;> simp
  · rfl

theorem execFrameTrailer_tableLock {c : Chan} {k : Word32} (h : execFrameTrailer c k s = .next t) :
    t.tableLock = s.tableLock := by
  rw [← next_inj h]
  dsimp only
  split
  · split <;> simp
  · split <;> simp
  · rfl

theorem execStartMark_tableLock {c : Chan} (h : execStartMark c s = .next t) : t.tableLock = s.tableLock := by
  rw [← next_inj h, State.startMark_tableLock]

theorem execResultWriteComplete_tableLock {c : Chan} (h : execResultWriteComplete c s = .next t) :
    t.tableLock = s.tableLock := by
  rw [← next_inj h]
  dsimp only
  split
  · split <;> simp
  · rfl

theorem execFrameWatchExpiry_tableLock {c : Chan} (h : execFrameWatchExpiry c s = .next t) :
    t.tableLock = s.tableLock := by
  rw [← next_inj h]
  dsimp only
  split
  · split
    · rw [State.pollWait_tableLock]
      split <;> simp
    · rfl
  · rfl

/-! ### The commands that change it: only over a state with no volume open -/

theorem execTableImagesRead_tableLock {b : List Byte} (h : execTableImagesRead b s = .next t)
    (hs : s.vau.vol ≠ .noVolume) : t.tableLock = s.tableLock := by
  rw [← next_inj h]
  split
  · split
    · simp
    · rw [if_neg hs, State.endLoad_tableLock]
  · rfl

/-- The plan is read only in the first part of an opening, where no volume is open (R26). -/
theorem execPlanRead_tableLock {e k : List Byte} (hc : s.VolumeCoherent) (h : execPlanRead e k s = .next t)
    (hs : s.vau.vol ≠ .noVolume) : t.tableLock = s.tableLock := by
  rw [← next_inj h]
  split
  · exact absurd (hc.openFirst _ ‹_› rfl) hs
  · rfl

/-- The steps of CLOSING before the last keep the locked value; the last leaves no volume open (R51). -/
theorem execClosingWriteComplete_tableLock (h : execClosingWriteComplete s = .next t)
    (ht : t.vau.vol ≠ .noVolume) : t.tableLock = s.tableLock := by
  rw [← next_inj h] at ht ⊢
  revert ht
  split
  · exact fun _ => rfl
  · split
    · exact fun _ => rfl
    · dsimp only
      split
      · exact fun _ => rfl
      · exact fun _ => rfl
      · exact fun _ => rfl
      · exact fun ht => absurd (by simp [State.endClosing, State.answer_eq]) ht

/-- After a reset no volume is open (R18). -/
theorem State.resetBlocks_vol (s : State) (e : Exp) (q : Tsq) : (s.resetBlocks e q).vau.vol = .noVolume := rfl

theorem execPowerOnReset_vol {p u d : Bool} (h : execPowerOnReset p u d s = .next t) :
    t.vau.vol = .noVolume := by
  rw [← next_inj h, State.resetBlocks_vol]

theorem execControlReset_vol {e : Bool} (h : execControlReset e s = .next t) : t.vau.vol = .noVolume := by
  rw [← next_inj h, State.controllerReset, State.resetBlocks_vol]

theorem execControlEnable_tableLock {v : Word32} (h : execControlEnable v s = .next t)
    (ht : t.vau.vol ≠ .noVolume) : t.tableLock = s.tableLock := by
  rw [← next_inj h] at ht ⊢
  split at ht
  · exact absurd (State.resetBlocks_vol _ _ _) ht
  · rw [if_neg ‹_›]

end Commands

/-- No command changes the locked value while a volume stays open (R17). -/
theorem exec_tableLock {c : Instr} {s t : State} (hc : s.VolumeCoherent) (h : exec c s = .next t)
    (hs : s.vau.vol ≠ .noVolume) (ht : t.vau.vol ≠ .noVolume) : t.tableLock = s.tableLock := by
  cases c with
  | powerOnReset => exact absurd (execPowerOnReset_vol h) ht
  | controlReset e => exact absurd (execControlReset_vol (e := e) h) ht
  | controlEnable => exact execControlEnable_tableLock h ht
  | post => exact execPost_tableLock h
  | slotReadComplete => exact execSlotReadComplete_tableLock h
  | answerWriteComplete => exact execAnswerWriteComplete_tableLock h
  | ack => exact execAck_tableLock h
  | noteClear => exact execNoteClear_tableLock h
  | noteMaskWrite => exact execNoteMaskWrite_tableLock h
  | baseWrite => exact execBaseWrite_tableLock h
  | grant => exact execGrant_tableLock h
  | registerWriteIgnored => rw [← next_inj h]
  | loadTables => exact execLoadTables_tableLock h
  | tableImagesRead => exact execTableImagesRead_tableLock h hs
  | sidebandSlotsClear => exact execSidebandSlotsClear_tableLock h
  | openVolume => exact execOpenVolume_tableLock h
  | sheetHeaderRead => exact execSheetHeaderRead_tableLock h
  | planRead => exact execPlanRead_tableLock hc h hs
  | ledgerReadComplete => exact execLedgerReadComplete_tableLock h
  | openingWritesComplete => exact execOpeningWritesComplete_tableLock h
  | amend => exact execAmend_tableLock h
  | amendWritesComplete => exact execAmendWritesComplete_tableLock h
  | handDone => exact execHandDone_tableLock h
  | handDoneWritesComplete => exact execHandDoneWritesComplete_tableLock h
  | closeVolume => exact execCloseVolume_tableLock h
  | closingWriteComplete => exact execClosingWriteComplete_tableLock h ht
  | advance => exact execAdvance_tableLock h
  | capture => exact execCapture_tableLock h
  | turn => exact execTurn_tableLock h
  | retake => exact execRetake_tableLock h
  | stop => exact execStop_tableLock h
  | reservationAnswer => exact execReservationAnswer_tableLock h
  | grantReport => exact execGrantReport_tableLock h
  | roomWatchExpiry => exact execRoomWatchExpiry_tableLock h
  | admissionAnswer => exact execAdmissionAnswer_tableLock h
  | armedAnswer => exact execArmedAnswer_tableLock h
  | fireAnswer => exact execFireAnswer_tableLock h
  | platenCompletion => exact execPlatenCompletion_tableLock h
  | turnCompletion => exact execTurnCompletion_tableLock h
  | lampFaultReport => exact execLampFaultReport_tableLock h
  | cameraFaultReport => exact execCameraFaultReport_tableLock h
  | judgementTaken => exact execJudgementTaken_tableLock h
  | admissionRequest => exact execAdmissionRequest_tableLock h
  | chargeWritesComplete => exact execChargeWritesComplete_tableLock h
  | abandonRequest => exact execAbandonRequest_tableLock h
  | fireRequest => exact execFireRequest_tableLock h
  | strobeEnd => exact execStrobeEnd_tableLock h
  | cancelRequest => exact execCancelRequest_tableLock h
  | abortRequest => exact execAbortRequest_tableLock h
  | interlockFall => exact execInterlockFall_tableLock h
  | openStringSense => exact execOpenStringSense_tableLock h
  | turnRequest => exact execTurnRequest_tableLock h
  | platenRequest => exact execPlatenRequest_tableLock h
  | tsqStop => exact execTsqStop_tableLock h
  | upSwitchCloses => exact execUpSwitchCloses_tableLock h
  | upSwitchOpens => exact execUpSwitchOpens_tableLock h
  | downSwitchCloses => exact execDownSwitchCloses_tableLock h
  | downSwitchOpens => exact execDownSwitchOpens_tableLock h
  | pressureReading => exact execPressureReading_tableLock h
  | edgeReached => exact execEdgeReached_tableLock h
  | burstEnd => exact execBurstEnd_tableLock h
  | vacuumSwitchCloses => exact execVacuumSwitchCloses_tableLock h
  | vacuumSwitchOpens => exact execVacuumSwitchOpens_tableLock h
  | readSettled => exact execReadSettled_tableLock h
  | sweepEnd => exact execSweepEnd_tableLock h
  | parkSwitchCloses => exact execParkSwitchCloses_tableLock h
  | parkSwitchOpens => exact execParkSwitchOpens_tableLock h
  | retryWindowExpiry => exact execRetryWindowExpiry_tableLock h
  | stageWatchExpiry => exact execStageWatchExpiry_tableLock h
  | cutDelayExpiry => exact execCutDelayExpiry_tableLock h
  | park => exact execPark_tableLock h
  | armRestore => exact execArmRestore_tableLock h
  | reservationRequest => exact execReservationRequest_tableLock h
  | unusableWriteComplete => exact execUnusableWriteComplete_tableLock h
  | releaseRequest => exact execReleaseRequest_tableLock h
  | descriptorFilled => exact execDescriptorFilled_tableLock h
  | armRequest => exact execArmRequest_tableLock h
  | endOfExposureNotice => exact execEndOfExposureNotice_tableLock h
  | frameHeader => exact execFrameHeader_tableLock h
  | bodyByte => exact execBodyByte_tableLock h
  | frameTrailer => exact execFrameTrailer_tableLock h
  | startMark => exact execStartMark_tableLock h
  | resultWriteComplete => exact execResultWriteComplete_tableLock h
  | frameWatchExpiry => exact execFrameWatchExpiry_tableLock h
  | sideband => exact execSideband_tableLock h
  | sidebandMalformed c ty n => exact execSidebandMalformed_tableLock (ty := ty) (n := n) h
  | strayBytes => rw [← next_inj h]
  | readSideband => exact execReadSideband_tableLock h
  | sidebandCopy => exact execSidebandCopy_tableLock h
  | sidebandReportWritten => exact execSidebandReportWritten_tableLock h
  | descriptorReadComplete => exact execDescriptorReadComplete_tableLock h
  | cancelAnswer => exact execCancelAnswer_tableLock h

theorem State.VolumeCoherent.withPending {s : State} (h : s.VolumeCoherent) (q : List Instr) :
    (s.withPending q).VolumeCoherent := ⟨h.order, h.work, h.step, h.close, h.openFirst, h.openSecond⟩

/-- Settles O19: the step is the command at the front of the queue (or none), and no command changes the locked
value while the volume stays open. -/
theorem tablesAreLockedWhileOpen : Obligations.TablesAreLockedWhileOpen := by
  intro s t hc h hs ht
  have key : t.tableLock = s.tableLock := by
    unfold step at h
    split at h
    · rw [← next_inj h]
    · have k := exec_tableLock (State.VolumeCoherent.withPending hc _) h hs ht
      exact k
  simpa only [State.tableLock, TableLock.mk.injEq] using key

end Sys2Proof.Machine
end

section
/-! SUPPORT. The class lookup, the validation of a staging copy, and LOAD TABLES (chapter 1). -/

namespace Sys2Proof.Machine

/-! ### The class lookup (R3) -/

/-- A class entry that the key does not match: not valid, or the key outside its range. -/
theorem classMatch_eq_false {e : ClassEntry} {key : Nat} :
    (e.valid && e.base ≤ key && key ≤ e.limit) = false
      ↔ e.valid = false ∨ key < e.base ∨ e.limit < key := by
  rw [Bool.and_eq_false_iff, Bool.and_eq_false_iff, decide_eq_false_iff_not, decide_eq_false_iff_not, or_assoc,
    Nat.not_le, Nat.not_le]

/-- With a first matching entry, the lookup gives its profile. -/
theorem Pfs.lookup_of_first {p : Pfs} {key i : Nat} {e : ClassEntry} (he : p.classes[i]? = some e)
    (hm : (e.valid && e.base ≤ key && key ≤ e.limit) = true)
    (hf : ∀ j f, j < i → p.classes[j]? = some f → (f.valid && f.base ≤ key && key ≤ f.limit) = false) :
    p.lookup key = some e.profile := by
  obtain ⟨hi, rfl⟩ := List.getElem?_eq_some_iff.1 he
  have h : p.classes.find? (fun c => c.valid && c.base ≤ key && key ≤ c.limit) = some p.classes[i] := by
    refine List.find?_eq_some_iff_getElem.2 ⟨hm, i, hi, rfl, fun j hj => ?_⟩
    rw [hf j _ hj (List.getElem?_eq_getElem _)]; rfl
  simp only [Pfs.lookup, h]

/-- With no matching entry, the lookup gives the default profile where it is enabled. -/
theorem Pfs.lookup_of_none {p : Pfs} {key : Nat}
    (h : ∀ e ∈ p.classes, (e.valid && e.base ≤ key && key ≤ e.limit) = false) :
    p.lookup key = if p.cradle.defaultEnable then some p.cradle.defaultProfile else none := by
  have hn : p.classes.find? (fun c => c.valid && c.base ≤ key && key ≤ c.limit) = none :=
    List.find?_eq_none.2 fun e he => by rw [h e he]; decide
  simp only [Pfs.lookup, hn]

/-- Settles O16: the first entry that is valid and whose range holds the key, and with none the default. -/
theorem classLookupTakesTheFirstMatch : Obligations.ClassLookupTakesTheFirstMatch := by
  intro p key
  refine ⟨fun i e he hv hb hl hf => ?_, fun h => ?_⟩
  · exact Pfs.lookup_of_first he (by simp [hv, hb, hl])
      fun j f hj hjf => classMatch_eq_false.2 (hf j f hj hjf)
  · exact Pfs.lookup_of_none fun e he => classMatch_eq_false.2 (h e he)

/-! ### The checks of Table 1-7 (R13) -/

theorem classPasses_iff (b : List Byte) (i : Nat) : classPasses b (classAt i) = true ↔
    byteAt b (16 * i) = 0
    ∨ (byteAt b (16 * i) = 1 ∧ leNat b (16 * i + 4) 4 ≤ leNat b (16 * i + 8) 4
      ∧ byteAt b (16 * i + 1) < 8) := by
  unfold classPasses classAt
  split <;> simp_all

theorem kindPasses_iff (k : KindParams) :
    kindPasses k = true ↔ 1 ≤ k.cap ∧ (100 ≤ k.strobe ∧ k.strobe ≤ 200000) ∧ k.knife ≤ 7 := by
  simp [kindPasses, within, and_assoc]

/-- A dose mode is set exactly by the codes 1 and 2 (Table 11-13). -/
theorem DoseMode.ofCode_ne_unset (n : Nat) : DoseMode.ofCode n ≠ .unset ↔ n = 1 ∨ n = 2 := by
  unfold DoseMode.ofCode
  split <;> simp_all

/-- A stall action is set exactly by the codes 1 to 4 (Table 11-13). -/
theorem StallAction.ofCode_ne_unset (n : Nat) : StallAction.ofCode n ≠ .unset ↔ 1 ≤ n ∧ n ≤ 4 := by
  unfold StallAction.ofCode
  split <;> simp_all; omega

/-- The five kinds of a profile as Table 11-6 lays them out: 16 bytes each. -/
theorem parseProfile_kinds (b : List Byte) (o : Nat) :
    [(parseProfile b o).board, (parseProfile b o).text, (parseProfile b o).plate, (parseProfile b o).tissue,
      (parseProfile b o).foldout] = (List.range 5).map (fun k => parseKind b (o + 16 * k)) := rfl

/-- The group Profile, as the check reads it from the profile of the copy. -/
theorem profilePasses_iff_parsed {b : List Byte} {o : Nat} {p : Profile} {kinds : List KindParams}
    (hp : parseProfile b o = p) (hk : [p.board, p.text, p.plate, p.tissue, p.foldout] = kinds) :
    profilePasses b o = true ↔
      (∀ k ∈ kinds, 1 ≤ k.cap ∧ (100 ≤ k.strobe ∧ k.strobe ≤ 200000) ∧ k.knife ≤ 7)
      ∧ 1 ≤ p.budget ∧ p.reserve ≤ 32 ∧ 100 ≤ p.tMin ∧ p.tMin ≤ 200000
      ∧ (∀ k ∈ kinds, p.tMin ≤ k.strobe)
      ∧ p.doseMode ≠ .unset ∧ 1 ≤ p.attemptLimit ∧ p.attemptLimit ≤ 15 ∧ p.stallAction ≠ .unset
      ∧ p.cutCode ≤ 7 ∧ 1 ≤ p.pressureLimit ∧ p.pressureLimit ≤ 1023
      ∧ p.autoLimit ≤ 3 ∧ byteAt b (o + 99) ≤ 1 ∧ p.gate ≤ 4 := by
  simp only [profilePasses, hp, hk, Bool.and_eq_true, List.all_eq_true, kindPasses_iff, within, decide_eq_true_eq,
    bne_iff_ne, and_assoc]

theorem profilePasses_iff (b : List Byte) (p : Nat) :
    let o := 512 + 192 * p
    let tMin := leNat b (o + 84) 4
    (profilePasses b (profileAt p) = true ↔
      (∀ k, k < 5 → 1 ≤ leNat b (o + 16 * k) 4
        ∧ 100 ≤ leNat b (o + 16 * k + 8) 4 ∧ leNat b (o + 16 * k + 8) 4 ≤ 200000
        ∧ byteAt b (o + 16 * k + 12) ≤ 7 ∧ tMin ≤ leNat b (o + 16 * k + 8) 4)
      ∧ 1 ≤ leNat b (o + 80) 4 ∧ byteAt b (o + 88) ≤ 32 ∧ 100 ≤ tMin ∧ tMin ≤ 200000
      ∧ (byteAt b (o + 89) = 1 ∨ byteAt b (o + 89) = 2)
      ∧ 1 ≤ byteAt b (o + 90) ∧ byteAt b (o + 90) ≤ 15
      ∧ 1 ≤ byteAt b (o + 94) ∧ byteAt b (o + 94) ≤ 4 ∧ byteAt b (o + 95) ≤ 7
      ∧ 1 ≤ leNat b (o + 96) 2 ∧ leNat b (o + 96) 2 ≤ 1023
      ∧ byteAt b (o + 98) ≤ 3 ∧ byteAt b (o + 99) ≤ 1 ∧ byteAt b (o + 100) ≤ 4) := by
  intro o tMin
  show profilePasses b o = true ↔ _
  rw [profilePasses_iff_parsed rfl (parseProfile_kinds b o)]
  simp only [List.forall_mem_map, List.mem_range, parseProfile, parseKind, DoseMode.ofCode_ne_unset,
    StallAction.ofCode_ne_unset, and_assoc]
  constructor
  · rintro ⟨hk, hbudget, hreserve, hlo, hhi, hmin, rest⟩
    refine ⟨fun k h => ?_, hbudget, hreserve, hlo, hhi, rest⟩
    obtain ⟨h1, h2, h3, h4⟩ := hk k h
    exact ⟨h1, h2, h3, h4, hmin k h⟩
  · rintro ⟨hk, hbudget, hreserve, hlo, hhi, rest⟩
    refine ⟨fun k h => ?_, hbudget, hreserve, hlo, hhi, fun k h => ?_, rest⟩
    · obtain ⟨h1, h2, h3, h4, -⟩ := hk k h
      exact ⟨h1, h2, h3, h4⟩
    · obtain ⟨-, -, -, -, hmin⟩ := hk k h
      exact hmin

theorem slotPasses_iff (b : List Byte) (t f k : Nat) : slotPasses b t f k = true ↔
    byteAt b (t + k) ≤ 127 ∧ byteAt b (f + k) ≤ 1
    ∧ (byteAt b (t + k) ≠ 0 → ∀ j, j < k → byteAt b (t + j) ≠ byteAt b (t + k)) := by
  simp only [slotPasses, Bool.and_eq_true, Bool.or_eq_true, decide_eq_true_eq, beq_iff_eq, List.all_eq_true,
    List.mem_range, bne_iff_ne, and_assoc, or_iff_not_imp_left, ne_eq]

theorem cradlePasses_zero (b : List Byte) :
    cradlePasses b cradleAt 0 = true ↔ byteAt b (256 + 9) ≤ 1 ∧ byteAt b (256 + 10) < 8 := by
  show cradlePasses b 256 0 = true ↔ _
  simp [cradlePasses]

/-- The items 1 to 4 are the slots of CCH-L and 5 to 8 those of CCH-R (R13). -/
theorem cradlePasses_slot (b : List Byte) (c : Chan) (k : Nat) (hk : k < 4) :
    cradlePasses b cradleAt ((if c = .left then 1 else 5) + k)
      = slotPasses b (256 + (if c = .left then 12 else 16)) (256 + (if c = .left then 20 else 24)) k := by
  cases c with
  | left => rw [cradlePasses, if_neg (by simp), if_pos (by simp; omega)]; simp [cradleAt]
  | right => rw [cradlePasses, if_neg (by simp), if_neg (by simp; omega)]; simp [cradleAt]

/-! ### The first failure (R13, R14) -/

/-- No index below n fails. -/
theorem find?_range_eq_none {n : Nat} {P : Nat → Bool} :
    (List.range n).find? (fun i => !P i) = none ↔ ∀ i, i < n → P i = true := by
  simp

/-- The index found is the first that fails. -/
theorem find?_range_eq_some {n k : Nat} {P : Nat → Bool} :
    (List.range n).find? (fun i => !P i) = some k ↔ k < n ∧ P k = false ∧ ∀ i, i < k → P i = true := by
  simp [List.find?_range_eq_some]; tauto

section FirstFailure
variable (b : List Byte)

/-- The groups are searched in order, each one only when those before it pass (R13). -/
theorem tableFailure_eq_or : tableFailure b =
    (((List.range 16).find? (fun i => !classPasses b (classAt i))).map (TableGroup.cls, ·)).or
      ((((List.range 8).find? (fun p => !profilePasses b (profileAt p))).map (TableGroup.profile, ·)).or
        (((List.range 9).find? (fun i => !cradlePasses b cradleAt i)).map (TableGroup.cradle, ·))) := by
  unfold tableFailure
  split
  · simp [*]
  · split
    · simp [*]
    · split <;> simp [*]

theorem tableFailure_eq_none : tableFailure b = none ↔
    (∀ i, i < 16 → classPasses b (classAt i) = true) ∧ (∀ p, p < 8 → profilePasses b (profileAt p) = true)
      ∧ (∀ i, i < 9 → cradlePasses b cradleAt i = true) := by
  simp only [← find?_range_eq_none]
  simp [tableFailure_eq_or]

theorem tableFailure_eq_cls (n : Nat) : tableFailure b = some (.cls, n) ↔
    n < 16 ∧ classPasses b (classAt n) = false ∧ ∀ i, i < n → classPasses b (classAt i) = true := by
  rw [← find?_range_eq_some (P := fun i => classPasses b (classAt i))]
  simp [tableFailure_eq_or, Option.or_eq_some_iff]

theorem tableFailure_eq_profile (n : Nat) : tableFailure b = some (.profile, n) ↔
    (∀ i, i < 16 → classPasses b (classAt i) = true)
      ∧ n < 8 ∧ profilePasses b (profileAt n) = false ∧ ∀ p, p < n → profilePasses b (profileAt p) = true := by
  rw [← find?_range_eq_none, ← find?_range_eq_some (P := fun p => profilePasses b (profileAt p))]
  simp [tableFailure_eq_or, Option.or_eq_some_iff]

theorem tableFailure_eq_cradle (n : Nat) : tableFailure b = some (.cradle, n) ↔
    (∀ i, i < 16 → classPasses b (classAt i) = true) ∧ (∀ p, p < 8 → profilePasses b (profileAt p) = true)
      ∧ n < 9 ∧ cradlePasses b cradleAt n = false ∧ ∀ i, i < n → cradlePasses b cradleAt i = true := by
  rw [← find?_range_eq_none, ← find?_range_eq_none,
    ← find?_range_eq_some (P := fun i => cradlePasses b cradleAt i)]
  simp [tableFailure_eq_or, Option.or_eq_some_iff]

end FirstFailure

/-- Settles O17: each check on the bytes it reads, and the search of the groups in the order of R13. -/
theorem tableValidationStopsAtTheFirstFailure : Obligations.TableValidationStopsAtTheFirstFailure := by
  refine ⟨classPasses_iff, profilePasses_iff, fun b => ⟨cradlePasses_zero b, fun c k hk => ?_⟩, fun b => ?_⟩
  · dsimp only
    rw [cradlePasses_slot b c k hk]; exact slotPasses_iff ..
  · exact ⟨tableFailure_eq_none b, tableFailure_eq_cls b, tableFailure_eq_profile b, tableFailure_eq_cradle b⟩

end Sys2Proof.Machine
end

section
/-! SUPPORT. The state after a reset, block by block (section 4.5), and the laws it meets. -/

namespace Sys2Proof.Machine

/-! ### The reset values of the blocks -/

theorem Exp.reset_slot (i : Fin 16) : Exp.reset.slot i = .free := Vector.getElem_replicate i.isLt

/-- With no note raised INT is low (R169). -/
theorem Exp.int_of_note_eq_zero {e : Exp} (h : e.note = 0) : e.int = false := by simp [Exp.int, h]

/-- An EMPTY store holds no class entry that is valid, and no default (R1, R3). -/
theorem Pfs.reset_lookup (k : Nat) : Pfs.reset.lookup k = none := rfl

theorem Cch.reset_slot (k : Fin 4) : Cch.reset.slot k = .reset := Vector.getElem_replicate k.isLt

/-- A reset channel holds no bank and no descriptor (R143). -/
theorem Fbk.reset_bank (b : BankId) : Fbk.reset.bank b = .reset := by cases b <;> rfl

theorem Bank.reset_desc (k : Fin 4) : Bank.reset.desc k = .free := Vector.getElem_replicate k.isLt

/-- No side has a count or a dose where none is recorded (R57, R98). -/
theorem Occ.reset_autoCount (e : Nat) (side : Side) : Occ.reset.autoCount e side = 0 := by cases side <;> rfl

theorem Ldu.reset_dose (e : Nat) (side : Side) : Ldu.reset.dose e side = 0 := by cases side <;> rfl

/-- The sequencer has no work in flight, and no turn, watch or message of any (R77). -/
def Tsq.AtReset (t : Tsq) : Prop :=
  t.work = .none ∧ t.stage = none ∧ t.attempts = 0 ∧ t.heavy = 0 ∧ t.level = 0 ∧ t.windowClosed = false
    ∧ t.failure = none ∧ t.stopTaken = false ∧ t.turnedBack = false ∧ t.inbox = []
    ∧ t.retryWatch = none ∧ t.stageWatch = none ∧ t.cutWatch = none

theorem Tsq.reset_atReset : Tsq.reset.AtReset := ⟨rfl, rfl, rfl, rfl, rfl, rfl, rfl, rfl, rfl, rfl, rfl, rfl, rfl⟩

theorem Tsq.powerOn_atReset (park up down : Bool) (n : Nat) : (Tsq.powerOn park up down n).AtReset :=
  Tsq.reset_atReset

theorem Tsq.controllerReset_atReset (t : Tsq) : t.controllerReset.AtReset := Tsq.reset_atReset

/-- A state whose blocks are at reset, whatever BASE, the cause and the states of the arm and the platen. -/
theorem resetValues_of_blocks {t : State} {base : Word32} {cause : ResetCause}
    (hexp : t.exp = { Exp.reset with base := base, cause := cause }) (hpfs : t.pfs = .reset)
    (hvau : t.vau = .reset) (hocc : t.occ = .reset) (htsq : t.tsq.AtReset) (hldu : t.ldu = .reset)
    (hcch : t.cch = ⟨.reset, .reset⟩) (hsb : t.sideband = ⟨none, []⟩) (hfbk : t.fbk = ⟨.reset, .reset⟩)
    (hhost : t.host.inFlight = []) : resetValues t := by
  obtain ⟨hwork, hstage, hatt, hheavy, hlevel, hwin, hfail, hstop, hback, hin, hretry, hwatch, hcut⟩ := htsq
  have channel (c : Chan) : t.cch.get c = .reset := by rw [hcch]; cases c <;> rfl
  have banks (c : Chan) : t.fbk.get c = .reset := by rw [hfbk]; cases c <;> rfl
  unfold resetValues
  rw [hexp, hpfs, hvau, hocc, hldu, hsb, hhost]
  refine ⟨Exp.reset_slot, rfl, rfl, rfl, rfl, rfl, rfl, rfl, rfl, Exp.int_of_note_eq_zero rfl, rfl,
    Pfs.reset_lookup, rfl, rfl, Occ.reset_autoCount, hwork, hstage, hatt, hheavy, hlevel, hwin, hfail, hstop, hback, hin, hretry, hwatch, hcut,
    rfl, Ldu.reset_dose, fun c => ?_, rfl, fun c b => ?_, rfl⟩
  · rw [channel]; exact ⟨rfl, Cch.reset_slot⟩
  · rw [banks, Fbk.reset_bank]; exact ⟨rfl, Bank.reset_desc, rfl, rfl, rfl, rfl⟩

theorem State.cutWrites_inFlight (s : State) : s.cutWrites.host.inFlight = [] := rfl

/-- Both resets set every block alike but the port and the sequencer (section 4.5). -/
theorem State.resetBlocks_resetValues (s : State) (base : Word32) (cause : ResetCause) {q : Tsq} (hq : q.AtReset) :
    resetValues (s.resetBlocks { Exp.reset with base := base, cause := cause } q) :=
  resetValues_of_blocks rfl rfl rfl rfl hq rfl rfl rfl rfl (State.cutWrites_inFlight s)

/-- A controller reset reaches the same values: the writes it cuts before differ in CLOSING alone (R55, R171). -/
theorem State.controllerReset_resetValues (s : State) : resetValues s.controllerReset :=
  State.resetBlocks_resetValues s.cutCloseValid s.exp.base .controller (Tsq.controllerReset_atReset s.tsq)

theorem State.cutCloseValid_pending (s : State) : s.cutCloseValid.pending = s.pending := by
  unfold State.cutCloseValid
  split <;> rfl

/-- Every command that resets the controller without power-on does the same (R171). -/
theorem exec_controllerReset {c : Instr}
    (h : (∃ e, c = .controlReset e) ∨ ∃ v : Word32, c = .controlEnable v ∧ v.getLsbD 1 = true) (s : State) :
    exec c s = .next s.controllerReset := by
  obtain ⟨e, rfl⟩ | ⟨v, rfl, hv⟩ := h
  · rfl
  · show Host.Outcome.next _ = _
    rw [if_pos hv]

theorem Vacuum.afterReset_of_ne_on {v : Vacuum} (h : v ≠ .on) : v.afterReset = v := by cases v <;> trivial

/-- Settles O3: power-on and controller reset, each item from its block's reset. -/
theorem resetsSetEveryBlock : Obligations.ResetsSetEveryBlock := by
  refine ⟨fun park up down s => ?_, fun c s hc => ?_⟩
  · refine ⟨_, rfl, State.resetBlocks_resetValues s 0 .powerOn (Tsq.powerOn_atReset ..), rfl, rfl, rfl, rfl, rfl, rfl,
      ?_, ?_, ?_, rfl⟩
    · rintro rfl rfl; rfl
    · rintro rfl rfl; rfl
    · rintro rfl; cases up <;> rfl
  · refine ⟨_, exec_controllerReset hc s, s.controllerReset_resetValues, rfl, rfl, fun h => ?_,
      Vacuum.afterReset_of_ne_on, rfl, fun h => if_pos h, rfl, fun h => if_neg h, rfl, rfl, rfl, rfl,
      s.cutCloseValid_pending⟩
    show s.tsq.vacuum.afterReset = _
    rw [h]; rfl

/-! ### The laws at power-on -/

theorem Exp.reset_queueExact : Exp.reset.QueueExact where
  nodup := List.nodup_nil
  pending i := by rw [Exp.reset_slot]; exact ⟨fun h => absurd h List.not_mem_nil, nofun⟩

theorem Tsq.reset_coherent : Tsq.reset.Coherent where
  relay := ⟨nofun, nofun⟩
  dead := nofun
  idle _ := ⟨rfl, rfl, rfl⟩
  turn := nofun
  wait := nofun
  park := nofun
  platen := nofun
  cut := nofun

theorem Ldu.reset_coherent : Ldu.reset.Coherent where
  lit := ⟨nofun, nofun⟩
  record := ⟨fun _ => rfl, fun _ => rfl⟩
  abandoned := nofun

theorem State.reset_interlockLaw : State.reset.InterlockLaw where
  tsq := Tsq.reset_coherent
  ldu := Ldu.reset_coherent
  motion := nofun
  watched := nofun
  dark := nofun

theorem State.reset_volumeCoherent : State.reset.VolumeCoherent where
  order := ⟨nofun, nofun⟩
  work h := absurd rfl h
  step := ⟨nofun, nofun⟩
  close := ⟨nofun, nofun⟩
  openFirst := nofun
  openSecond := ⟨nofun, nofun⟩

theorem Vau.reset_numberLaw : Vau.reset.NumberLaw := ⟨by decide, .inl rfl⟩

/-- Settles O60: each law at the state after power-on, where no volume is open and nothing is in flight. -/
theorem resetMeetsEveryLaw : Obligations.ResetMeetsEveryLaw :=
  ⟨State.reset_wf, Exp.reset_queueExact, State.reset_interlockLaw, State.reset_volumeCoherent, Nat.le_refl 0,
    fun _ h => absurd h List.not_mem_nil, Vau.reset_numberLaw,
    resetValues_of_blocks (base := 0) (cause := .powerOn) rfl rfl rfl rfl Tsq.reset_atReset rfl rfl rfl rfl rfl⟩

end Sys2Proof.Machine
end

section
/-! SUPPORT. LOAD TABLES: the orders started, the tables installed, the slots cleared, and the copy's bytes as the
store takes them (R12 to R16, R155). -/

namespace Sys2Proof.Machine

/-! ### The orders that wait (R12) -/

/-- With no volume open the first order that waits has its images read. -/
theorem State.startLoads_of_noVolume {s : State} (h : s.vau.vol = .noVolume) (l : List (Fin 16)) :
    s.startLoads l = { s with pfs := { s.pfs with job := l.head?.map .reading, waiting := l.tail } } := by
  cases l with
  | nil => rfl
  | cons i l => rw [State.startLoads, if_pos h]; rfl

/-- With a volume open every order that waits is answered VOLUME_OPEN, and none is left. -/
theorem State.startLoads_of_open {s : State} (h : s.vau.vol ≠ .noVolume) (l : List (Fin 16)) :
    s.startLoads l = { l.foldl (fun u j => u.answer j .volumeOpen) s with
      pfs := { s.pfs with job := none, waiting := [] } } := by
  induction l generalizing s with
  | nil => rfl
  | cons i l ih => rw [State.startLoads, if_neg h, ih (s := s.answer i .volumeOpen) h]; rfl

theorem execLoadTables_of_order {s s' : State} {d : Dispatched} (h : s.nextOrder .pfs = some (d, s')) :
    (s.pfs.job ≠ none → execLoadTables s
      = .next { s' with pfs := { s'.pfs with waiting := s.pfs.waiting ++ [d.slot] } })
    ∧ (s.pfs.job = none → execLoadTables s = .next (s'.startLoads [d.slot])) := by
  have hp : s'.pfs = s.pfs := (State.nextOrder_kept h).pfs
  unfold execLoadTables
  rw [h]
  dsimp only
  rw [hp]
  cases s.pfs.job with
  | none => exact ⟨fun k => absurd rfl k, fun _ => rfl⟩
  | some j => exact ⟨fun _ => rfl, nofun⟩

/-! ### The images read (R13 to R16) -/

section Images
variable {b : List Byte} {i : Fin 16} {s : State} (hj : s.pfs.job = some (.reading i))
include hj

theorem execTableImagesRead_of_failure {g : TableGroup} {n : Nat} (hf : tableFailure b = some (g, n)) :
    execTableImagesRead b s
      = .next ((s.answer i .badTable [⟨68, 1, g.code⟩, ⟨69, 1, n⟩]).startLoads s.pfs.waiting) := by
  simp only [execTableImagesRead, hj, hf, State.endLoad]

theorem execTableImagesRead_of_open (hf : tableFailure b = none) (hv : s.vau.vol ≠ .noVolume) :
    execTableImagesRead b s = .next ((s.answer i .volumeOpen).startLoads s.pfs.waiting) := by
  simp only [execTableImagesRead, hj, hf, if_neg hv, State.endLoad]

theorem execTableImagesRead_of_noVolume (hf : tableFailure b = none) (hv : s.vau.vol = .noVolume) :
    execTableImagesRead b s = .next (s.installTables i b) := by
  simp only [execTableImagesRead, hj, hf, if_pos hv]

end Images

/-! ### The slots cleared (R155) -/

/-- Each slot of a channel after a change of all four. -/
theorem Cch.slot_mapSlots (x : Cch) (f : Fin 4 → SbSlot → SbSlot) (k : Fin 4) :
    (x.mapSlots f).slot k = f k (x.slot k) := by
  match k with
  | 0 | 1 | 2 | 3 => rfl

/-- The state after a channel has taken its new types and flags with its slots cleared. -/
def State.clearSlots (s : State) (c : Chan) : State :=
  s.setCch c ((s.cch.get c).mapSlots (fun k _ =>
    .cleared ((s.pfs.cradle.slotConfig.get c).types.getD k.val 0)
      ((s.pfs.cradle.slotConfig.get c).storeOnError.getD k.val false)))

/-- Only the slots of the channel change. -/
theorem State.clearSlots_eq (s : State) (c : Chan) : s.clearSlots c
    = { s with cch := s.cch.set c { s.cch.get c with slots := ((s.clearSlots c).cch.get c).slots } } := by
  rw [State.clearSlots, State.setCch_cch, Pair.get_set]; rfl

theorem State.clearSlots_slot (s : State) (c : Chan) (k : Fin 4) : ((s.clearSlots c).cch.get c).slot k
    = { SbSlot.reset with
        type := (s.pfs.cradle.slotConfig.get c).types.getD k.val 0
        storeOnError := (s.pfs.cradle.slotConfig.get c).storeOnError.getD k.val false } := by
  rw [State.clearSlots, State.setCch_cch, Pair.get_set, Cch.slot_mapSlots]; rfl

/-- The channel that clears first leaves the other to clear; the second ends the order (R15; log 11). -/
theorem execSidebandSlotsClear_of_job {c : Chan} {i : Fin 16} {todo : ChanSet} {s : State}
    (hj : s.pfs.job = some (.clearing i todo)) (hc : todo.has c = true) :
    execSidebandSlotsClear c s = .next (if (todo.erase c).isEmpty
      then ((s.clearSlots c).answer i .done).startLoads s.pfs.waiting
      else { s.clearSlots c with pfs := { s.pfs with job := some (.clearing i (todo.erase c)) } }) := by
  simp only [execSidebandSlotsClear, hj, if_pos hc]; rfl

/-! ### The copy's bytes (Tables 11-5 to 11-7) -/

theorem parseClasses_get (b : List Byte) {i : Nat} (h : i < 16) :
    (parseClasses b)[i]? = some (parseClass b (classAt i)) := by simp [parseClasses, h]

theorem parseProfiles_get (b : List Byte) {p : Nat} (h : p < 8) :
    (parseProfiles b)[p]? = some (parseProfile b (profileAt p)) := by simp [parseProfiles, h]

theorem DoseMode.ofCode_eq_ite (n : Nat) :
    DoseMode.ofCode n = if n = 1 then .withhold else if n = 2 then .halt else .unset := by
  unfold DoseMode.ofCode
  split <;> simp_all

theorem StallAction.ofCode_eq_ite (n : Nat) :
    StallAction.ofCode n = if n = 1 then .hold else if n = 2 then .retract
      else if n = 3 then .retractCut else if n = 4 then .cut else .unset := by
  unfold StallAction.ofCode
  split <;> simp_all

/-- Settles O18, rule by rule: the orders that wait, the images read, the slots cleared, the bytes taken. -/
theorem loadTablesInstallsOrRefuses : Obligations.LoadTablesInstallsOrRefuses := by
  refine ⟨fun s l => ⟨fun h => State.startLoads_of_noVolume h l, fun h => State.startLoads_of_open h l⟩,
    fun s s' d h => execLoadTables_of_order h,
    fun b i s hj => ⟨fun g n => execTableImagesRead_of_failure hj, execTableImagesRead_of_open hj,
      execTableImagesRead_of_noVolume hj⟩,
    fun c i todo s hj hc => ⟨s.clearSlots c, s.clearSlots_eq c, s.clearSlots_slot c, fun h => ?_, fun h => ?_⟩,
    fun b => ⟨by simp [parseClasses], fun i h => parseClasses_get b h⟩,
    fun b => ⟨by simp [parseProfiles], fun p h => ?_⟩, fun b => rfl⟩
  · show execSidebandSlotsClear c s = _
    rw [execSidebandSlotsClear_of_job hj hc, h]; rfl
  · show execSidebandSlotsClear c s = _
    rw [execSidebandSlotsClear_of_job hj hc, h]; rfl
  · dsimp only
    rw [parseProfiles_get b h, ← DoseMode.ofCode_eq_ite, ← StallAction.ofCode_eq_ite]; rfl

end Sys2Proof.Machine
end

section
/-! SUPPORT. What the laws of an open volume speak of (R18, R31, R40, R57, R99): the order and the work of OCC,
VAU's account and orders, and the doses. Every shared operation that serves another purpose leaves it as it is. -/

namespace Sys2Proof.Machine

/-- The order and the work of OCC, VAU's account without the judgements that wait there, and the doses. -/
structure VolumeView where
  order : Option CycleOrder
  work : Work
  account : Vau
  sideDose : List (Nat × Nat)
  volDose : Nat

/-- What the laws of an open volume speak of, as it stands in a state. -/
def State.volumeView (s : State) : VolumeView :=
  ⟨s.occ.order, s.occ.work, { s.vau with judgements := [] }, s.ldu.sideDose, s.ldu.volDose⟩

/-- The view rests on these items alone. -/
theorem State.volumeView_congr {s t : State} (ho : t.occ.order = s.occ.order) (hw : t.occ.work = s.occ.work)
    (ha : { t.vau with judgements := [] } = { s.vau with judgements := [] })
    (hs : t.ldu.sideDose = s.ldu.sideDose) (hd : t.ldu.volDose = s.ldu.volDose) :
    t.volumeView = s.volumeView := by
  simp only [State.volumeView, ho, hw, ha, hs, hd]

theorem State.Issued.volumeView {s t : State} (h : State.Issued s t) : t.volumeView = s.volumeView :=
  State.volumeView_congr (by rw [h.occ]) (by rw [h.occ]) (by rw [h.vau]) (by rw [h.ldu]) (by rw [h.ldu])

theorem State.Banked.volumeView {s t : State} (h : State.Banked s t) : t.volumeView = s.volumeView :=
  State.volumeView_congr (by rw [h.occ]) (by rw [h.occ]) (by rw [h.vau]) (by rw [h.kept.ldu]) (by rw [h.kept.ldu])

/-! ### Writes, notes and messages -/

@[simp] theorem State.issue_volumeView (s : State) (w : Writer) (a : Nat) (b : List Byte) :
    (s.issue w a b).volumeView = s.volumeView := rfl
@[simp] theorem State.answer_volumeView (s : State) (i : Fin 16) (k : AnswerCode) (f : List FieldVal) :
    (s.answer i k f).volumeView = s.volumeView := rfl
@[simp] theorem State.land_volumeView (s : State) (p : HostWrite → Bool) :
    (s.land p).volumeView = s.volumeView := rfl
@[simp] theorem State.landBody_volumeView (s : State) (c : Chan) : (s.landBody c).volumeView = s.volumeView := rfl
@[simp] theorem State.raise_volumeView (s : State) (n : Note) : (s.raise n).volumeView = s.volumeView := rfl
@[simp] theorem State.toOcc_volumeView (s : State) (m : OccMsg) : (s.toOcc m).volumeView = s.volumeView := rfl
@[simp] theorem State.toLdu_volumeView (s : State) (m : LduMsg) : (s.toLdu m).volumeView = s.volumeView := rfl
@[simp] theorem State.toTsq_volumeView (s : State) (m : TsqMsg) : (s.toTsq m).volumeView = s.volumeView := rfl
@[simp] theorem State.toFbk_volumeView (s : State) (c : Chan) (m : FbkMsg) :
    (s.toFbk c m).volumeView = s.volumeView := rfl
@[simp] theorem State.setTsq_volumeView (s : State) (q : Tsq) : (s.setTsq q).volumeView = s.volumeView := rfl
@[simp] theorem State.setCch_volumeView (s : State) (c : Chan) (x : Cch) :
    (s.setCch c x).volumeView = s.volumeView := rfl
@[simp] theorem State.setFbk_volumeView (s : State) (c : Chan) (f : Fbk) :
    (s.setFbk c f).volumeView = s.volumeView := rfl
@[simp] theorem State.report_volumeView (s : State) (j : Judgement) : (s.report j).volumeView = s.volumeView := rfl

theorem State.nextOrder_volumeView {s t : State} {o : Owner} {d : Dispatched} (h : s.nextOrder o = some (d, t)) :
    t.volumeView = s.volumeView := by rw [State.nextOrder_eq h]; rfl

theorem State.nextMsg_volumeView {s t : State} {f : Sender} {m : OccMsg} (h : s.nextMsg f = some (m, t)) :
    t.volumeView = s.volumeView := by rw [State.nextMsg_eq h]; rfl

theorem State.nextLdu_volumeView {s t : State} {m : LduMsg} (h : s.nextLdu = some (m, t)) :
    t.volumeView = s.volumeView := by
  unfold State.nextLdu at h
  split at h
  · cases h
  · cases h; rfl

/-! ### The frame banks (chapter 8) -/

@[simp] theorem State.dropFbk_volumeView (s : State) (c : Chan) (l : List FbkMsg) :
    (s.dropFbk c l).volumeView = s.volumeView := rfl
@[simp] theorem State.releaseDesc_volumeView (s : State) (c : Chan) (b : BankId) (i : Fin 4) :
    (s.releaseDesc c b i).volumeView = s.volumeView := (State.releaseDesc_banked ..).volumeView
@[simp] theorem State.fillDesc_volumeView (s : State) (c : Chan) (b : BankId) (i : Fin 4) (r : Bool) :
    (s.fillDesc c b i r).volumeView = s.volumeView := (State.fillDesc_banked ..).volumeView

@[simp] theorem State.seek_volumeView (s : State) (c : Chan) : (s.seek c).volumeView = s.volumeView := by
  unfold State.seek
  dsimp only
  split <;> simp

@[simp] theorem State.grantOf_volumeView (s : State) (c : Chan) (a b : Bool) :
    (s.grantOf c a b).volumeView = s.volumeView := by rw [State.grantOf_eq]; rfl

/-! ### The light unit and the cameras (chapters 6 and 7) -/

@[simp] theorem State.notifyAll_volumeView (s : State) (cs : ChanSet) (f : Chan → Notice) :
    (s.notifyAll cs f).volumeView = s.volumeView := by
  unfold State.notifyAll
  dsimp only
  split <;> split <;> rfl

/-- The end of an exposure leaves the doses (R98, R115). -/
@[simp] theorem State.setIdle_volumeView (s : State) : (s.setLdu s.ldu.idle).volumeView = s.volumeView := rfl

@[simp] theorem State.notifyIdle_volumeView (s : State) (cs : ChanSet) (f : Chan → Notice) :
    ((s.notifyAll cs f).setLdu s.ldu.idle).volumeView = s.volumeView := by
  unfold State.notifyAll
  dsimp only
  split <;> split <;> rfl

@[simp] theorem State.fire_volumeView (s : State) (r : ExposureRec) : (s.fire r).volumeView = s.volumeView := by
  unfold State.fire
  split
  · rfl
  · simp

@[simp] theorem State.lampsOff_volumeView (s : State) : s.lampsOff.volumeView = s.volumeView := by
  unfold State.lampsOff
  dsimp only
  split <;> rfl

@[simp] theorem State.endStrobe_volumeView (s : State) (r : ExposureRec) (k : NoticeKind) (a : FireReply) :
    (s.endStrobe r k a).volumeView = s.volumeView := by simp [State.endStrobe]

@[simp] theorem State.clearLost_volumeView (s : State) (c : Chan) : (s.clearLost c).volumeView = s.volumeView := rfl
@[simp] theorem State.issueResult_volumeView (s : State) (c : Chan) (d : Reservation) (r : Result) :
    (s.issueResult c d r).volumeView = s.volumeView := rfl
@[simp] theorem State.arm_volumeView (s : State) (c : Chan) (q : ArmReq) :
    (s.arm c q).volumeView = s.volumeView := rfl

@[simp] theorem State.endFrame_volumeView (s : State) (c : Chan) (ok : Bool) :
    (s.endFrame c ok).volumeView = s.volumeView := by
  unfold State.endFrame
  dsimp only
  split
  · rfl
  · split <;> simp

@[simp] theorem State.startMark_volumeView (s : State) (c : Chan) : (s.startMark c).volumeView = s.volumeView := by
  unfold State.startMark
  dsimp only
  split <;> simp

@[simp] theorem State.takeByte_volumeView (s : State) (c : Chan) (b : Byte) :
    (s.takeByte c b).volumeView = s.volumeView := by
  unfold State.takeByte
  dsimp only
  split
  · split <;> simp
  · rfl

@[simp] theorem State.loseTake_volumeView (s : State) (c : Chan) (t : TakeRec) :
    (s.loseTake c t).volumeView = s.volumeView := by
  unfold State.loseTake
  dsimp only
  split <;> simp

@[simp] theorem State.cutTake_volumeView (s : State) (c : Chan) (t : TakeRec) :
    (s.cutTake c t).volumeView = s.volumeView := by simp [State.cutTake]

@[simp] theorem State.numberResult_volumeView (s : State) (c : Chan) (n : Nat) :
    (s.numberResult c n).volumeView = s.volumeView := by
  unfold State.numberResult
  dsimp only
  split
  · split <;> simp
  · rfl

/-! ### The turn sequencer (chapter 5) -/

@[simp] theorem State.settle_volumeView (s : State) (b : Bool) : (s.settle b).volumeView = s.volumeView := by
  unfold State.settle
  split <;> rfl

@[simp] theorem State.answerTurn_volumeView (s : State) (r : TurnReply) :
    (s.answerTurn r).volumeView = s.volumeView := rfl
@[simp] theorem State.stallTurn_volumeView (s : State) : s.stallTurn.volumeView = s.volumeView := rfl
@[simp] theorem State.holdArm_volumeView (s : State) : s.holdArm.volumeView = s.volumeView := rfl
@[simp] theorem State.cutArm_volumeView (s : State) : s.cutArm.volumeView = s.volumeView := rfl

@[simp] theorem State.finishDown_volumeView (s : State) : s.finishDown.volumeView = s.volumeView := by
  unfold State.finishDown
  split
  · rfl
  · split
    · rfl
    · split <;> rfl
  · rfl

@[simp] theorem State.arriveDown_volumeView (s : State) (p : Platen) :
    (s.arriveDown p).volumeView = s.volumeView := by simp [State.arriveDown]

@[simp] theorem State.beginPlatenDown_volumeView (s : State) : s.beginPlatenDown.volumeView = s.volumeView := by
  unfold State.beginPlatenDown
  dsimp only
  split
  · simp
  · split <;> simp

@[simp] theorem State.armStall_volumeView (s : State) : s.armStall.volumeView = s.volumeView := by
  unfold State.armStall
  split <;> simp

@[simp] theorem State.platenStall_volumeView (s : State) : s.platenStall.volumeView = s.volumeView := by
  unfold State.platenStall
  dsimp only
  split <;> simp

@[simp] theorem State.stageExpired_volumeView (s : State) : s.stageExpired.volumeView = s.volumeView := by
  unfold State.stageExpired
  split
  · simp
  · simp
  · simp
  · split <;> simp
  · simp

@[simp] theorem State.acceptTurn_volumeView (s : State) (c : Nat) : (s.acceptTurn c).volumeView = s.volumeView := rfl

@[simp] theorem State.stopTurn_volumeView (s : State) (g : Stage) : (s.stopTurn g).volumeView = s.volumeView := by
  unfold State.stopTurn
  split
  case h_7 => split <;> rfl
  all_goals simp

@[simp] theorem State.endRelease_volumeView (s : State) (r : Nat) : (s.endRelease r).volumeView = s.volumeView := by
  unfold State.endRelease
  split <;> rfl

@[simp] theorem State.park_volumeView (s : State) (i : Fin 16) (r : Bool) :
    (s.park i r).volumeView = s.volumeView := by
  unfold State.park
  dsimp only
  split
  · rfl
  · split
    · rfl
    · split
      · rfl
      · split <;> split <;> rfl

@[simp] theorem State.armRestore_volumeView (s : State) (i : Fin 16) :
    (s.armRestore i).volumeView = s.volumeView := by
  unfold State.armRestore
  split
  · rfl
  · split <;> rfl

/-! ### The reservations of OCC and the orders of PFS (R12, R65, R72) -/

@[simp] theorem State.releaseHeld_volumeView (s : State) : s.releaseHeld.volumeView = s.volumeView := by
  obtain ⟨-, n, f, h⟩ := State.releaseHeld_spec s
  rw [h]; rfl

@[simp] theorem State.askRelease_volumeView (s : State) (c : Chan) :
    (s.askRelease c).volumeView = s.volumeView := by
  unfold State.askRelease
  split <;> rfl

@[simp] theorem State.sendArm_volumeView (s : State) (c : Chan) (n : Nat) :
    (s.sendArm c n).volumeView = s.volumeView := by
  unfold State.sendArm
  split <;> rfl

@[simp] theorem State.startLoads_volumeView (s : State) (l : List (Fin 16)) :
    (s.startLoads l).volumeView = s.volumeView := by
  induction l generalizing s with
  | nil => rfl
  | cons i l ih =>
    unfold State.startLoads
    split
    · rfl
    · rw [ih]; rfl

@[simp] theorem State.endLoad_volumeView (s : State) (i : Fin 16) (k : AnswerCode) (f : List FieldVal) :
    (s.endLoad i k f).volumeView = s.volumeView := by simp [State.endLoad]

end Sys2Proof.Machine
end

section
/-! SUPPORT. The commands that leave the view of the volume as it is, one lemma each. -/

namespace Sys2Proof.Machine

section QuietCommands
variable {s t : State}

/-- The end of an event at the sequencer adds only the fall of the interlock signal (R80). -/
theorem State.tsqNext_volumeView {a : State} (h : s.tsqNext a = .next t) (ha : a.volumeView = s.volumeView) :
    t.volumeView = s.volumeView := by
  rw [← next_inj h, State.settle_volumeView, ha]

/-! The exchange port (chapter 10). -/

theorem execPost_volumeView {v : Word32} (h : execPost v s = .next t) : t.volumeView = s.volumeView := by
  rw [← next_inj h]; rfl

theorem execAck_volumeView {v : Word32} (h : execAck v s = .next t) : t.volumeView = s.volumeView := by
  rw [← next_inj h]; rfl

theorem execNoteClear_volumeView {v : Word32} (h : execNoteClear v s = .next t) :
    t.volumeView = s.volumeView := by rw [← next_inj h]; rfl

theorem execNoteMaskWrite_volumeView {v : Word32} (h : execNoteMaskWrite v s = .next t) :
    t.volumeView = s.volumeView := by rw [← next_inj h]; rfl

theorem execBaseWrite_volumeView {v : Word32} (h : execBaseWrite v s = .next t) :
    t.volumeView = s.volumeView := by rw [← next_inj h]; rfl

theorem execGrant_volumeView {v : Word32} (h : execGrant v s = .next t) : t.volumeView = s.volumeView := by
  rw [← next_inj h]; simp

theorem execSlotReadComplete_volumeView {b : List Byte} (h : execSlotReadComplete b s = .next t) :
    t.volumeView = s.volumeView := by
  rw [← next_inj h]
  split
  · rfl
  · dsimp only
    split <;> rfl

theorem execAnswerWriteComplete_volumeView {i : Fin 16} (h : execAnswerWriteComplete i s = .next t) :
    t.volumeView = s.volumeView := by
  rw [← next_inj h]
  split <;> rfl

/-! LOAD TABLES and the side band (chapters 1 and 9). -/

theorem execLoadTables_volumeView (h : execLoadTables s = .next t) : t.volumeView = s.volumeView := by
  rw [← next_inj h]
  split
  · rfl
  · have k := State.nextOrder_volumeView ‹_›
    split
    · exact k
    · rw [State.startLoads_volumeView, k]

theorem execTableImagesRead_volumeView {b : List Byte} (h : execTableImagesRead b s = .next t) :
    t.volumeView = s.volumeView := by
  rw [← next_inj h]
  split
  · split
    · simp
    · split
      · rfl
      · simp
  · rfl

theorem execSidebandSlotsClear_volumeView {c : Chan} (h : execSidebandSlotsClear c s = .next t) :
    t.volumeView = s.volumeView := by
  rw [← next_inj h]
  split
  · split
    · dsimp only
      split
      · simp
      · rfl
    · rfl
  · rfl

theorem execSideband_volumeView {c : Chan} {ty k : Byte} {p : List Byte} (h : execSideband c ty p k s = .next t) :
    t.volumeView = s.volumeView := by
  rw [← next_inj h]
  split <;> simp

theorem execSidebandMalformed_volumeView {c : Chan} {ty n : Byte} (h : execSidebandMalformed c ty n s = .next t) :
    t.volumeView = s.volumeView := by
  rw [← next_inj h, State.startMark_volumeView]

theorem execReadSideband_volumeView (h : execReadSideband s = .next t) : t.volumeView = s.volumeView := by
  rw [← next_inj h]
  split
  · rfl
  · have k := State.nextOrder_volumeView ‹_›
    split <;> exact k

theorem execSidebandCopy_volumeView {c : Chan} (h : execSidebandCopy c s = .next t) :
    t.volumeView = s.volumeView := by
  rw [← next_inj h]
  split
  · split <;> rfl
  · rfl

theorem execSidebandReportWritten_volumeView {c : Chan} (h : execSidebandReportWritten c s = .next t) :
    t.volumeView = s.volumeView := by
  rw [← next_inj h]
  split
  · split
    · dsimp only
      split <;> rfl
    · rfl
  · rfl

/-! A lamp fault waits at OCC for a check point (R73), and the light unit (chapter 6). -/

theorem execLampFaultReport_volumeView (h : execLampFaultReport s = .next t) : t.volumeView = s.volumeView := by
  rw [← next_inj h]
  split
  · have k := State.nextMsg_volumeView ‹_›
    split <;> exact k
  · rfl

theorem execChargeWritesComplete_volumeView (h : execChargeWritesComplete s = .next t) :
    t.volumeView = s.volumeView := by
  rw [← next_inj h]
  split
  · dsimp only
    split <;> rfl
  · rfl

theorem execAbandonRequest_volumeView (h : execAbandonRequest s = .next t) : t.volumeView = s.volumeView := by
  rw [← next_inj h]
  split
  · have k := State.nextLdu_volumeView ‹_›
    split <;> exact k
  · rfl

theorem execFireRequest_volumeView (h : execFireRequest s = .next t) : t.volumeView = s.volumeView := by
  rw [← next_inj h]
  split
  · have k := State.nextLdu_volumeView ‹_›
    split <;> simp [k]
  · rfl

theorem execStrobeEnd_volumeView (h : execStrobeEnd s = .next t) : t.volumeView = s.volumeView := by
  rw [← next_inj h]
  split
  · simp
  · rfl

theorem execCancelRequest_volumeView (h : execCancelRequest s = .next t) : t.volumeView = s.volumeView := by
  rw [← next_inj h]
  split
  · have k := State.nextLdu_volumeView ‹_›
    split <;> simp [k]
  · rfl

theorem execAbortRequest_volumeView (h : execAbortRequest s = .next t) : t.volumeView = s.volumeView := by
  rw [← next_inj h]
  split
  · have k := State.nextLdu_volumeView ‹_›
    split <;> simp [k]
  · rfl

theorem execInterlockFall_volumeView (h : execInterlockFall s = .next t) : t.volumeView = s.volumeView := by
  rw [← next_inj h]
  split
  · split <;> simp
  · rfl

theorem execOpenStringSense_volumeView {b : Fin 4} (h : execOpenStringSense b s = .next t) :
    t.volumeView = s.volumeView := by
  rw [← next_inj h]
  split
  · split <;> rfl
  · rfl

/-! The turn sequencer (chapter 5). -/

theorem execTurnRequest_volumeView (h : execTurnRequest s = .next t) : t.volumeView = s.volumeView := by
  refine State.tsqNext_volumeView h ?_
  split
  · dsimp only
    split <;> simp
  · rfl

theorem execPlatenRequest_volumeView (h : execPlatenRequest s = .next t) : t.volumeView = s.volumeView := by
  refine State.tsqNext_volumeView h ?_
  split
  · split <;> simp
  · rfl

theorem execTsqStop_volumeView (h : execTsqStop s = .next t) : t.volumeView = s.volumeView := by
  refine State.tsqNext_volumeView h ?_
  split
  · dsimp only
    split <;> simp
  · rfl

theorem execUpSwitchCloses_volumeView (h : execUpSwitchCloses s = .next t) : t.volumeView = s.volumeView :=
  State.tsqNext_volumeView h rfl

theorem execUpSwitchOpens_volumeView (h : execUpSwitchOpens s = .next t) : t.volumeView = s.volumeView :=
  State.tsqNext_volumeView h rfl

theorem execDownSwitchCloses_volumeView (h : execDownSwitchCloses s = .next t) : t.volumeView = s.volumeView := by
  refine State.tsqNext_volumeView h ?_
  split <;> simp

theorem execDownSwitchOpens_volumeView (h : execDownSwitchOpens s = .next t) : t.volumeView = s.volumeView :=
  State.tsqNext_volumeView h rfl

theorem execPressureReading_volumeView {n : Fin 1024} (h : execPressureReading n s = .next t) :
    t.volumeView = s.volumeView := by
  refine State.tsqNext_volumeView h ?_
  split <;> simp

theorem execEdgeReached_volumeView (h : execEdgeReached s = .next t) : t.volumeView = s.volumeView := by
  refine State.tsqNext_volumeView h ?_
  split <;> rfl

theorem execBurstEnd_volumeView (h : execBurstEnd s = .next t) : t.volumeView = s.volumeView := by
  refine State.tsqNext_volumeView h ?_
  split <;> rfl

theorem execVacuumSwitchCloses_volumeView (h : execVacuumSwitchCloses s = .next t) :
    t.volumeView = s.volumeView := by
  refine State.tsqNext_volumeView h ?_
  split <;> rfl

theorem execSweepEnd_volumeView (h : execSweepEnd s = .next t) : t.volumeView = s.volumeView := by
  refine State.tsqNext_volumeView h ?_
  split <;> rfl

theorem execParkSwitchCloses_volumeView (h : execParkSwitchCloses s = .next t) :
    t.volumeView = s.volumeView := by
  refine State.tsqNext_volumeView h ?_
  split
  case h_4 => split <;> rfl
  all_goals simp

theorem execParkSwitchOpens_volumeView (h : execParkSwitchOpens s = .next t) : t.volumeView = s.volumeView :=
  State.tsqNext_volumeView h rfl

theorem execRetryWindowExpiry_volumeView (h : execRetryWindowExpiry s = .next t) :
    t.volumeView = s.volumeView := by
  refine State.tsqNext_volumeView h ?_
  split <;> rfl

theorem execStageWatchExpiry_volumeView (h : execStageWatchExpiry s = .next t) : t.volumeView = s.volumeView := by
  refine State.tsqNext_volumeView h ?_
  split <;> simp

theorem execCutDelayExpiry_volumeView (h : execCutDelayExpiry s = .next t) : t.volumeView = s.volumeView := by
  refine State.tsqNext_volumeView h ?_
  split <;> simp

theorem execPark_volumeView (h : execPark s = .next t) : t.volumeView = s.volumeView := by
  refine State.tsqNext_volumeView h ?_
  split
  · exact (State.park_volumeView ..).trans (State.nextOrder_volumeView ‹_›)
  · rfl

theorem execArmRestore_volumeView (h : execArmRestore s = .next t) : t.volumeView = s.volumeView := by
  refine State.tsqNext_volumeView h ?_
  split
  · exact (State.armRestore_volumeView ..).trans (State.nextOrder_volumeView ‹_›)
  · rfl

/-! The frame banks (chapter 8). -/

theorem execReservationRequest_volumeView {c : Chan} (h : execReservationRequest c s = .next t) :
    t.volumeView = s.volumeView := by
  rw [← next_inj h]
  split
  · dsimp only
    split <;> simp
  · rfl

theorem execDescriptorReadComplete_volumeView {c : Chan} {b : List Byte}
    (h : execDescriptorReadComplete c b s = .next t) : t.volumeView = s.volumeView := by
  rw [← next_inj h]
  dsimp only
  split
  · split <;> simp
  · rfl

theorem execUnusableWriteComplete_volumeView {c : Chan} (h : execUnusableWriteComplete c s = .next t) :
    t.volumeView = s.volumeView := by
  rw [← next_inj h]
  split
  · simp
  · rfl

theorem execReleaseRequest_volumeView {c : Chan} (h : execReleaseRequest c s = .next t) :
    t.volumeView = s.volumeView := by
  rw [← next_inj h]
  split
  · simp
  · rfl

theorem execDescriptorFilled_volumeView {c : Chan} (h : execDescriptorFilled c s = .next t) :
    t.volumeView = s.volumeView := by
  rw [← next_inj h]
  split
  · dsimp only
    split <;> simp
  · rfl

/-! The camera channels (chapter 7). -/

theorem execArmRequest_volumeView {c : Chan} (h : execArmRequest c s = .next t) : t.volumeView = s.volumeView := by
  rw [← next_inj h]
  split
  · rfl
  · dsimp only
    split <;> simp

theorem execEndOfExposureNotice_volumeView {c : Chan} (h : execEndOfExposureNotice c s = .next t) :
    t.volumeView = s.volumeView := by
  rw [← next_inj h]
  dsimp only
  split
  · rfl
  · split <;> simp

theorem execFrameHeader_volumeView {c : Chan} {i : BitVec 16} {n : Word32} (h : execFrameHeader c i n s = .next t) :
    t.volumeView = s.volumeView := by
  rw [← next_inj h]; simp

theorem execBodyByte_volumeView {c : Chan} {b : Byte} (h : execBodyByte c b s = .next t) :
    t.volumeView = s.volumeView := by
  rw [← next_inj h]
  dsimp only
  split
  · split <;> simp
  · split <;> simp
  · rfl

theorem execFrameTrailer_volumeView {c : Chan} {k : Word32} (h : execFrameTrailer c k s = .next t) :
    t.volumeView = s.volumeView := by
  rw [← next_inj h]
  dsimp only
  split
  · split <;> simp
  · split <;> simp
  · rfl

theorem execStartMark_volumeView {c : Chan} (h : execStartMark c s = .next t) : t.volumeView = s.volumeView := by
  rw [← next_inj h, State.startMark_volumeView]

end QuietCommands

end Sys2Proof.Machine
end

section
/-! SUPPORT. The laws of the account (R31, R40, R41) under each change of the account: a side that keeps them, an
entry, a mirror, and the numbers that an acceptance takes. -/

namespace Sys2Proof.Machine

/-! ### A side record -/

/-- A side record that is CAPTURED only as it was before or with its panels complete, and records no new number. -/
structure SideRec.LawsKept (r r' : SideRec) : Prop where
  capture : r.CaptureLaw → r'.CaptureLaw
  numbers : ∀ p ∈ r'.panels, p.number = 0 ∨ p ∈ r.panels

theorem SideRec.LawsKept.refl (r : SideRec) : SideRec.LawsKept r r := ⟨id, fun _ h => .inr h⟩

/-- A change that leaves the panels and makes no side CAPTURED keeps the laws. -/
theorem SideRec.LawsKept.of_panels {r r' : SideRec} (hp : r'.panels = r.panels)
    (hs : r'.status = .captured → r.status = .captured) : SideRec.LawsKept r r' where
  capture h k := by rw [SideRec.complete, hp]; exact h (hs k)
  numbers p h := .inr (hp ▸ h)

theorem SideRec.countTake_laws (r : SideRec) : SideRec.LawsKept r r.countTake := .of_panels rfl id

/-- No rejection, withhold or skip marking makes a side CAPTURED (R42 to R44). -/
theorem Status.reject_captured {st : Status} (h : st.reject = .captured) : st = .captured := by
  cases st <;> trivial

theorem Status.withhold_captured {st : Status} (h : st.withhold = .captured) : st = .captured := by
  cases st <;> trivial

theorem Status.skip_captured {st : Status} (h : st.skip = .captured) : st = .captured := by
  cases st <;> trivial

/-- No side starts CAPTURED (Table 2-2). -/
theorem initialStatus_ne_captured (k : Kind) (first : Bool) (side : Side) :
    initialStatus k first side ≠ .captured := by
  cases k <;> cases first <;> cases side <;> decide

theorem emptyPanels_number {n : Nat} {p : Panel} (h : p ∈ emptyPanels n) : p.number = 0 := by
  rw [List.eq_of_mem_replicate h]

theorem initialSide_captureLaw (p : PlanEntry) (first : Bool) (side : Side) (takes dose : Nat) :
    (initialSide p first side takes dose).CaptureLaw := fun h =>
  absurd h (initialStatus_ne_captured _ _ _)

/-- A side changed by AMEND is not CAPTURED and holds no number (R35). -/
theorem SideRec.amend_laws (r : SideRec) (k : Kind) (side : Side) : SideRec.LawsKept r (r.amend k side) where
  capture _ h := absurd h (initialStatus_ne_captured _ _ _)
  numbers _ h := .inl (emptyPanels_number h)

/-- Every panel of a list holds a number. -/
theorem SideRec.complete_iff (r : SideRec) : r.complete = true ↔ ∀ p ∈ r.panels, p.number ≠ 0 := by
  simp [SideRec.complete]

/-- An acceptance with a number makes CAPTURED only a side whose panels are complete (R41). -/
theorem SideRec.accept_captureLaw {r : SideRec} (h : r.CaptureLaw) (panel check : Nat) {n : Nat} (hn : n ≠ 0) :
    (r.accept panel n check).CaptureLaw := by
  unfold SideRec.accept
  dsimp only
  split
  · next hc => obtain ⟨-, hc⟩ := hc; exact fun _ => hc
  · intro hs
    rw [SideRec.complete_iff]
    intro p hp
    obtain hp | rfl := List.mem_or_eq_of_mem_set hp
    · exact (SideRec.complete_iff r).1 (h hs) p hp
    · exact hn

/-- The numbers recorded after an acceptance are those before and the one given (R41). -/
theorem SideRec.accept_numbers {r : SideRec} {panel n check : Nat} {p : Panel}
    (h : p ∈ (r.accept panel n check).panels) : p.number = n ∨ p ∈ r.panels := by
  have k : p ∈ r.panels.set (panel - 1) ⟨n, check⟩ := by
    revert h
    unfold SideRec.accept
    dsimp only
    split <;> exact id
  obtain k | rfl := List.mem_or_eq_of_mem_set k
  · exact .inr k
  · exact .inl rfl

/-! ### An entry -/

/-- An entry both of whose sides keep the laws. -/
structure LedgerEntry.LawsKept (x y : LedgerEntry) : Prop where
  verso : SideRec.LawsKept x.verso y.verso
  recto : SideRec.LawsKept x.recto y.recto

theorem LedgerEntry.LawsKept.refl (x : LedgerEntry) : LedgerEntry.LawsKept x x := ⟨.refl _, .refl _⟩

/-- One side changed by a change that keeps the laws. -/
theorem LedgerEntry.setSide_laws (x : LedgerEntry) (side : Side) {r : SideRec}
    (h : SideRec.LawsKept (x.sideRec side) r) : LedgerEntry.LawsKept x (x.setSide side r) := by
  cases side with
  | verso => exact ⟨h, .refl _⟩
  | recto => exact ⟨.refl _, h⟩

/-- Skip marking keeps the laws of an entry (R44). -/
theorem skipEntry_laws (plan : List PlanEntry) (c c' e : Nat) (x : LedgerEntry) :
    LedgerEntry.LawsKept x (skipEntry plan c c' e x) := by
  unfold skipEntry
  split
  · constructor
    · dsimp only
      split
      · exact .of_panels rfl Status.skip_captured
      · exact .refl _
    · dsimp only
      split
      · exact .of_panels rfl Status.skip_captured
      · exact .refl _
  · exact .refl x

/-! ### The mirror -/

/-- The laws of the account hold after a change of the account when they held before. -/
structure Vau.LawsKept (v w : Vau) : Prop where
  capture : v.CaptureLaw → w.CaptureLaw
  number : v.NumberLaw → w.NumberLaw

theorem Vau.LawsKept.refl (v : Vau) : Vau.LawsKept v v := ⟨id, id⟩

theorem Vau.LawsKept.trans {u v w : Vau} (h : Vau.LawsKept u v) (k : Vau.LawsKept v w) : Vau.LawsKept u w :=
  ⟨k.capture ∘ h.capture, k.number ∘ h.number⟩

/-- The laws rest on the mirror and the next accepted-frame number alone. -/
theorem Vau.LawsKept.of_eq {v w : Vau} (hm : w.mirror = v.mirror) (hn : w.nextFrame = v.nextFrame) :
    Vau.LawsKept v w where
  capture h := by unfold Vau.CaptureLaw; rw [hm]; exact h
  number h := ⟨by rw [hn]; exact h.width, by rw [hn, hm]; exact h.below⟩

/-- A mirror each of whose entries keeps the laws of one that it held, with the number left. -/
theorem Vau.LawsKept.of_entries {v w : Vau} (hn : w.nextFrame = v.nextFrame)
    (hm : ∀ y ∈ w.mirror, ∃ x ∈ v.mirror, LedgerEntry.LawsKept x y) : Vau.LawsKept v w where
  capture h y hy := by
    obtain ⟨x, hx, k⟩ := hm y hy
    obtain ⟨hv, hr⟩ := h x hx
    exact ⟨k.verso.capture hv, k.recto.capture hr⟩
  number h := by
    refine ⟨by rw [hn]; exact h.width, ?_⟩
    rw [hn]
    refine or_iff_not_imp_left.2 fun h0 y hy p hp => ?_
    obtain ⟨x, hx, k⟩ := hm y hy
    have old := h.below.resolve_left h0 x hx p
    obtain hp | hp := List.mem_append.1 hp
    · obtain hz | hp := k.verso.numbers p hp
      · omega
      · exact old (List.mem_append_left _ hp)
    · obtain hz | hp := k.recto.numbers p hp
      · omega
      · exact old (List.mem_append_right _ hp)

/-- The entries of a list with one entry changed. -/
theorem mem_modify {α : Type} {l : List α} {e : Nat} {f : α → α} {y : α} (h : y ∈ l.modify e f) :
    y ∈ l ∨ ∃ x ∈ l, l[e]? = some x ∧ y = f x := by
  obtain ⟨i, hi⟩ := List.mem_iff_getElem?.1 h
  rw [List.getElem?_modify] at hi
  split at hi
  · next he =>
    subst he
    obtain ⟨x, hx, rfl⟩ := Option.map_eq_some_iff.1 hi
    exact .inr ⟨x, List.mem_of_getElem? hx, hx, rfl⟩
  · exact .inl (List.mem_of_getElem? (by simpa using hi))

/-- One entry changed by a change that keeps the laws. -/
theorem Vau.mapEntry_laws (v : Vau) (e : Nat) {f : LedgerEntry → LedgerEntry}
    (h : ∀ x, LedgerEntry.LawsKept x (f x)) : Vau.LawsKept v (v.mapEntry e f) := by
  refine .of_entries rfl fun y hy => ?_
  obtain hy | ⟨x, hx, -, rfl⟩ := mem_modify hy
  · exact ⟨y, hy, .refl y⟩
  · exact ⟨x, hx, h x⟩

/-- One side changed by a change that keeps the laws. -/
theorem Vau.mapSide_laws (v : Vau) (e : Nat) (side : Side) {f : SideRec → SideRec}
    (h : ∀ r, SideRec.LawsKept r (f r)) : Vau.LawsKept v (v.mapSide e side f) :=
  v.mapEntry_laws e fun x => x.setSide_laws side (h _)

theorem Vau.countTake_laws (v : Vau) (e : Nat) (side : Side) : Vau.LawsKept v (v.mapSide e side .countTake) :=
  v.mapSide_laws e side SideRec.countTake_laws

theorem Vau.reject_laws (v : Vau) (e : Nat) (side : Side) : Vau.LawsKept v (v.reject e side) :=
  v.mapSide_laws e side fun _ => .of_panels rfl Status.reject_captured

theorem Vau.withhold_laws (v : Vau) (e : Nat) (side : Side) : Vau.LawsKept v (v.withhold e side) :=
  v.mapSide_laws e side fun _ => .of_panels rfl Status.withhold_captured

theorem Vau.foldl_reject_laws (items : List RetakeItem) (v : Vau) :
    Vau.LawsKept v (items.foldl (fun v i => v.reject i.leaf i.side) v) := by
  induction items generalizing v with
  | nil => exact .refl v
  | cons i items ih => exact (v.reject_laws ..).trans (ih _)

theorem Vau.failedAttempt_laws (v : Vau) (e : Nat) (r : LiftReading) : Vau.LawsKept v (v.failedAttempt e r) :=
  v.mapEntry_laws e fun _ => ⟨.refl _, .refl _⟩

theorem Vau.setUncertain_laws (v : Vau) (e : Nat) (u : Bool) : Vau.LawsKept v (v.setUncertain e u) :=
  v.mapEntry_laws e fun _ => ⟨.refl _, .refl _⟩

/-- An entry of a mirror mapped with its indexes comes from an entry of the mirror. -/
theorem mem_mapFrom {α β : Type} {f : Nat → α → β} {k : Nat} {l : List α} {y : β} (h : y ∈ mapFrom f k l) :
    ∃ e x, l[e]? = some x ∧ y = f (k + e) x := by
  obtain ⟨e, he⟩ := List.mem_iff_getElem?.1 h
  rw [mapFrom_get] at he
  obtain ⟨x, hx, rfl⟩ := Option.map_eq_some_iff.1 he
  exact ⟨e, x, hx, rfl⟩

/-- Every entry after skip marking keeps the laws of an entry before it (R44). -/
theorem skipMark_laws {plan : List PlanEntry} {c c' : Nat} {mirror : List LedgerEntry} {y : LedgerEntry}
    (h : y ∈ skipMark plan c c' mirror) : ∃ x ∈ mirror, LedgerEntry.LawsKept x y := by
  obtain ⟨e, x, hx, rfl⟩ := mem_mapFrom h
  exact ⟨x, List.mem_of_getElem? hx, skipEntry_laws ..⟩

theorem Vau.moveCursor_laws (v : Vau) (c : Nat) : Vau.LawsKept v (v.moveCursor c) :=
  .of_entries rfl fun _ => skipMark_laws

theorem Vau.handStepDone_laws (v : Vau) (step : HandStep) (c : Nat) : Vau.LawsKept v (v.handStepDone step c) := by
  unfold Vau.handStepDone
  split
  · exact .of_eq rfl rfl
  · exact .of_eq rfl rfl
  · exact .of_eq rfl rfl
  · exact (v.moveCursor_laws c).trans (Vau.setUncertain_laws ..)

theorem Vau.amend_laws (v : Vau) (e : Nat) (k : Kind) : Vau.LawsKept v (v.amend e k) :=
  (v.mapEntry_laws e fun x => ⟨x.verso.amend_laws k .verso, x.recto.amend_laws k .recto⟩).trans (.of_eq rfl rfl)

/-! ### Acceptance (R40, R41) -/

/-- The number after n, until the numbers are exhausted (R40). -/
theorem nextNumber_cases {n : Nat} (hn : n ≠ 0) (hw : n < 2 ^ 32) : nextNumber n = 0 ∨ nextNumber n = n + 1 := by
  rw [nextNumber, if_neg hn]
  omega

theorem nextNumber_lt (n : Nat) : nextNumber n < 2 ^ 32 := by
  unfold nextNumber
  split <;> omega

/-- An acceptance takes the next accepted-frame number and counts on, so that each number given stays below the
next one (R40, R41). -/
theorem Vau.accept_laws (v : Vau) (e : Nat) (side : Side) (panel check : Nat) (hn : v.nextFrame ≠ 0) :
    Vau.LawsKept v { v.mapSide e side (fun r => r.accept panel v.nextFrame check)
      with nextFrame := nextNumber v.nextFrame } where
  capture h y hy := by
    obtain hy | ⟨x, hx, -, rfl⟩ := mem_modify hy
    · exact h y hy
    · obtain ⟨hv, hr⟩ := h x hx
      cases side with
      | verso => exact ⟨SideRec.accept_captureLaw hv panel check hn, hr⟩
      | recto => exact ⟨hv, SideRec.accept_captureLaw hr panel check hn⟩
  number h := by
    refine ⟨nextNumber_lt _, ?_⟩
    obtain h0 | h1 := nextNumber_cases hn h.width
    · exact .inl h0
    · refine .inr fun y hy p hp => ?_
      show p.number < nextNumber v.nextFrame
      rw [h1]
      have old {x : LedgerEntry} (hx : x ∈ v.mirror) {p : Panel} (hp : p ∈ x.verso.panels ++ x.recto.panels) :
          p.number < v.nextFrame + 1 := by have := h.below.resolve_left hn x hx p hp; omega
      obtain hy | ⟨x, hx, -, rfl⟩ := mem_modify hy
      · exact old hy hp
      · have new {r : SideRec} (hr : ∀ p ∈ r.panels, p ∈ x.verso.panels ++ x.recto.panels)
            (hp : p ∈ (r.accept panel v.nextFrame check).panels) : p.number < v.nextFrame + 1 := by
          obtain hp | hp := SideRec.accept_numbers hp
          · omega
          · exact old hx (hr p hp)
        cases side with
        | verso =>
          obtain hp | hp := List.mem_append.1 hp
          · exact new (fun p hp => List.mem_append_left _ hp) hp
          · exact old hx (List.mem_append_right _ hp)
        | recto =>
          obtain hp | hp := List.mem_append.1 hp
          · exact old hx (List.mem_append_left _ hp)
          · exact new (fun p hp => List.mem_append_right _ hp) hp

/-! ### The mirrors of an opening (R29 to R31) -/

/-- A mirror whose sides obey the capture law, with a next number above every number recorded, meets both laws
whatever stood before. -/
theorem Vau.LawsKept.of_mirror {v w : Vau} (hc : w.CaptureLaw) (hn : w.NumberLaw) : Vau.LawsKept v w :=
  ⟨fun _ => hc, fun _ => hn⟩

theorem freshMirror_laws {v : Vau} {plan : List PlanEntry} (hm : v.mirror = freshMirror plan)
    (hn : v.nextFrame = 1) : v.CaptureLaw ∧ v.NumberLaw := by
  constructor
  · intro y hy
    rw [hm] at hy
    obtain ⟨e, p, -, rfl⟩ := mem_mapFrom hy
    exact ⟨initialSide_captureLaw _ _ _ _ _, initialSide_captureLaw _ _ _ _ _⟩
  · refine ⟨by rw [hn]; decide, .inr fun y hy q hq => ?_⟩
    rw [hm] at hy
    obtain ⟨e, p, -, rfl⟩ := mem_mapFrom hy
    have h0 : q.number = 0 := by
      obtain hq | hq := List.mem_append.1 hq
      · exact emptyPanels_number hq
      · exact emptyPanels_number hq
    omega

theorem byteAt_lt (b : List Byte) (i : Nat) : byteAt b i < 256 := BitVec.isLt _

/-- A number of n bytes (section 4.1). -/
theorem leNat_lt (b : List Byte) (i n : Nat) : leNat b i n < 256 ^ n := by
  induction n generalizing i with
  | zero => exact Nat.one_pos
  | succ n ih =>
    have h1 := ih (i + 1)
    have h2 := byteAt_lt b i
    rw [leNat, Nat.pow_succ]
    omega

/-- A side corrected at a resume obeys the capture law (R30). -/
theorem SideRec.correct_captureLaw (r : SideRec) : r.correct.CaptureLaw := by
  unfold SideRec.correct
  split
  · exact nofun
  · next h => intro hs; simpa [hs] using h

theorem SideRec.correct_panels (r : SideRec) : r.correct.panels = r.panels := by
  unfold SideRec.correct
  split <;> rfl

/-- The numbers of a side as read are 4-byte numbers (Table 11-10). -/
theorem parseSide_number_lt {b : List Byte} {o n : Nat} {r : SideRec} (h : parseSide b o n = some r) :
    ∀ p ∈ r.panels, p.number < 2 ^ 32 := by
  unfold parseSide at h
  split at h
  · cases h
  · split at h
    · cases h
      intro p hp
      obtain ⟨j, -, rfl⟩ := List.mem_map.1 hp
      exact leNat_lt ..
    · cases h

/-- An entry that fits holds the two sides as read (R30). -/
theorem fitSides_some {p : PlanEntry} {b : List Byte} {o : Nat} {v r : SideRec} (h : fitSides p b o = some (v, r)) :
    Kind.ofCode (byteAt b o) = some p.kind ∧ parseSide b (o + 16) (p.panelsOf .verso) = some v
      ∧ parseSide b (o + 88) (p.panelsOf .recto) = some r := by
  unfold fitSides at h
  split at h
  · split at h
    · next hk _ _ _ _ hv hr => cases h; exact ⟨hk, hv, hr⟩
    · cases h
  · cases h

/-- A reconciled entry: its sides obey the capture law, and its numbers are 4-byte numbers (R30). -/
theorem reconcile_laws (b : List Byte) (e : Nat) (p : PlanEntry) :
    let x := (reconcile b e p).1
    (x.verso.CaptureLaw ∧ x.recto.CaptureLaw)
      ∧ ∀ q ∈ x.verso.panels ++ x.recto.panels, q.number < 2 ^ 32 := by
  unfold reconcile
  dsimp only
  split
  · refine ⟨⟨initialSide_captureLaw _ _ _ _ _, initialSide_captureLaw _ _ _ _ _⟩, fun q hq => ?_⟩
    have h0 : q.number = 0 := by
      obtain hq | hq := List.mem_append.1 hq
      · exact emptyPanels_number hq
      · exact emptyPanels_number hq
    omega
  · next v r h =>
    obtain ⟨-, hv, hr⟩ := fitSides_some h
    refine ⟨⟨v.correct_captureLaw, r.correct_captureLaw⟩, fun q hq => ?_⟩
    obtain hq | hq := List.mem_append.1 hq
    · exact parseSide_number_lt hv q (v.correct_panels ▸ hq)
    · exact parseSide_number_lt hr q (r.correct_panels ▸ hq)

end Sys2Proof.Machine
end

section
/-! SUPPORT. The accepted-frame numbers of a mirror (R31, R40): the largest of them, and the next number of a
resumed volume. -/

namespace Sys2Proof.Machine

/-- Every accepted-frame number recorded in a mirror. -/
def frameNumbers (mirror : List LedgerEntry) : List Nat :=
  (sidesOf mirror).flatMap (fun r => r.panels.map (·.number))

theorem mem_sidesOf {mirror : List LedgerEntry} {r : SideRec} :
    r ∈ sidesOf mirror ↔ ∃ x ∈ mirror, ∃ side, x.sideRec side = r := by
  simp only [sidesOf, List.mem_flatMap, List.mem_cons, List.not_mem_nil, or_false]
  constructor
  · rintro ⟨x, hx, rfl | rfl⟩
    · exact ⟨x, hx, .verso, rfl⟩
    · exact ⟨x, hx, .recto, rfl⟩
  · rintro ⟨x, hx, side, rfl⟩
    cases side with
    | verso => exact ⟨x, hx, .inl rfl⟩
    | recto => exact ⟨x, hx, .inr rfl⟩

theorem mem_frameNumbers {mirror : List LedgerEntry} {n : Nat} :
    n ∈ frameNumbers mirror ↔ ∃ x ∈ mirror, ∃ side, ∃ p ∈ (x.sideRec side).panels, p.number = n := by
  simp only [frameNumbers, List.mem_flatMap, List.mem_map, mem_sidesOf]
  constructor
  · rintro ⟨_, ⟨x, hx, side, rfl⟩, p, hp, rfl⟩
    exact ⟨x, hx, side, p, hp, rfl⟩
  · rintro ⟨x, hx, side, p, hp, rfl⟩
    exact ⟨_, ⟨x, hx, side, rfl⟩, p, hp, rfl⟩

theorem largestFrame_eq (mirror : List LedgerEntry) :
    largestFrame mirror = ((frameNumbers mirror).max?).getD 0 := by
  have h : largestFrame mirror = (frameNumbers mirror).foldl max 0 := by
    simp only [frameNumbers, List.foldl_flatMap, List.foldl_map]; rfl
  rw [h, List.foldl_max, Nat.zero_max]

/-- The largest number bounds every number recorded, and is one of them where it is not 0. -/
theorem largestFrame_spec (mirror : List LedgerEntry) :
    (∀ n ∈ frameNumbers mirror, n ≤ largestFrame mirror)
    ∧ (largestFrame mirror ≠ 0 → largestFrame mirror ∈ frameNumbers mirror) := by
  rw [largestFrame_eq]
  cases h : (frameNumbers mirror).max? with
  | none => simp [List.max?_eq_none_iff.1 h]
  | some m =>
    obtain ⟨hm, hb⟩ := List.max?_eq_some_iff.1 h
    exact ⟨hb, fun _ => hm⟩

theorem le_largestFrame {mirror : List LedgerEntry} {x : LedgerEntry} (hx : x ∈ mirror) {p : Panel}
    (hp : p ∈ x.verso.panels ++ x.recto.panels) : p.number ≤ largestFrame mirror := by
  obtain hp | hp := List.mem_append.1 hp
  · exact (largestFrame_spec mirror).1 _ (mem_frameNumbers.2 ⟨x, hx, .verso, p, hp, rfl⟩)
  · exact (largestFrame_spec mirror).1 _ (mem_frameNumbers.2 ⟨x, hx, .recto, p, hp, rfl⟩)

/-- The exhausted numbers of a resumed volume: no number follows (R31). -/
theorem resumedNumber_exhausted {header : Nat} {mirror : List LedgerEntry}
    (h : header = 0 ∨ largestFrame mirror = 4294967295) : resumedNumber header mirror = 0 := if_pos h

/-- Otherwise the next number is above every number recorded (R31). -/
theorem resumedNumber_next {header : Nat} {mirror : List LedgerEntry} (h0 : header ≠ 0)
    (hl : largestFrame mirror ≠ 4294967295) :
    resumedNumber header mirror = max header (largestFrame mirror + 1) := by
  rw [resumedNumber, if_neg (not_or.2 ⟨h0, hl⟩)]
  omega

/-- The mirror read back by a resume, before its skip marking (R30). -/
abbrev readMirror (plan : List PlanEntry) (b : List Byte) : List LedgerEntry :=
  (mapFrom (reconcile b) 0 plan).map (·.1)

theorem mem_readMirror {plan : List PlanEntry} {b : List Byte} {x : LedgerEntry} (h : x ∈ readMirror plan b) :
    ∃ e p, x = (reconcile b e p).1 := by
  obtain ⟨r, hr, rfl⟩ := List.mem_map.1 h
  obtain ⟨e, p, -, rfl⟩ := mem_mapFrom hr
  exact ⟨_, p, rfl⟩

theorem readMirror_captureLaw {plan : List PlanEntry} {b : List Byte} {x : LedgerEntry}
    (h : x ∈ readMirror plan b) : x.verso.CaptureLaw ∧ x.recto.CaptureLaw := by
  obtain ⟨e, p, rfl⟩ := mem_readMirror h
  exact (reconcile_laws b e p).1

theorem readMirror_largestFrame_lt (plan : List PlanEntry) (b : List Byte) :
    largestFrame (readMirror plan b) < 2 ^ 32 := by
  by_cases h0 : largestFrame (readMirror plan b) = 0
  · omega
  · obtain ⟨x, hx, side, p, hp, hn⟩ := mem_frameNumbers.1 ((largestFrame_spec _).2 h0)
    obtain ⟨e, q, rfl⟩ := mem_readMirror hx
    rw [← hn]
    refine (reconcile_laws b e q).2 p ?_
    cases side with
    | verso => exact List.mem_append_left _ hp
    | recto => exact List.mem_append_right _ hp

/-- A resumed volume meets the laws of the account, whatever its ledger holds (R30, R31). -/
theorem resumed_laws {v : Vau} {plan : List PlanEntry} {b : List Byte} {header cursor : Nat}
    (hh : header < 2 ^ 32) (hm : v.mirror = skipMark plan 0 cursor (readMirror plan b))
    (hn : v.nextFrame = resumedNumber header (readMirror plan b)) : v.CaptureLaw ∧ v.NumberLaw := by
  have marked {y : LedgerEntry} (hy : y ∈ v.mirror) :
      ∃ x ∈ readMirror plan b, LedgerEntry.LawsKept x y := skipMark_laws (hm ▸ hy)
  constructor
  · intro y hy
    obtain ⟨x, hx, k⟩ := marked hy
    obtain ⟨hv, hr⟩ := readMirror_captureLaw hx
    exact ⟨k.verso.capture hv, k.recto.capture hr⟩
  · by_cases hz : header = 0 ∨ largestFrame (readMirror plan b) = 4294967295
    · rw [resumedNumber_exhausted hz] at hn
      exact ⟨by omega, .inl hn⟩
    · obtain ⟨h0, hl⟩ := not_or.1 hz
      rw [resumedNumber_next h0 hl] at hn
      have hlt := readMirror_largestFrame_lt plan b
      refine ⟨by omega, .inr fun y hy p hp => ?_⟩
      obtain ⟨x, hx, k⟩ := marked hy
      have old {q : Panel} (hq : q ∈ x.verso.panels ++ x.recto.panels) : q.number < v.nextFrame := by
        have := le_largestFrame hx hq; omega
      obtain hp | hp := List.mem_append.1 hp
      · obtain h | h := k.verso.numbers p hp
        · omega
        · exact old (List.mem_append_left _ h)
      · obtain h | h := k.recto.numbers p hp
        · omega
        · exact old (List.mem_append_right _ h)

end Sys2Proof.Machine
end

section
/-! SUPPORT. What a lawful step is: it keeps the laws of the account, of the volume state and of the doses. The
operations of the opening cycle keep them from a state with an order in flight. -/

namespace Sys2Proof.Machine

/-- The laws of an open volume hold in t when they hold in s (O28, O41, O51). -/
structure State.Lawful (s t : State) : Prop where
  account : Vau.LawsKept s.vau t.vau
  volume : s.VolumeCoherent → t.VolumeCoherent
  doseLaw : s.ldu.DoseLaw → t.ldu.DoseLaw
  doses : s.VolumeCoherent → s.vau.vol ≠ .noVolume → s.vau.vol ≠ .opening → t.vau.vol ≠ .noVolume →
    s.ldu.volDose ≤ t.ldu.volDose ∧ ∀ e side, s.ldu.dose e side ≤ t.ldu.dose e side

/-- t has the order, the volume state and the orders of VAU of s, and its doses; OCC's work may be another, and
the account may change within its laws. -/
structure State.SameVolume (s t : State) : Prop where
  order : t.occ.order = s.occ.order
  vol : t.vau.vol = s.vau.vol
  step : t.vau.step = s.vau.step
  close : t.vau.closeJob = s.vau.closeJob
  opens : t.vau.openJob = s.vau.openJob
  account : Vau.LawsKept s.vau t.vau
  sideDose : t.ldu.sideDose = s.ldu.sideDose
  volDose : t.ldu.volDose = s.ldu.volDose

theorem State.SameVolume.refl (s : State) : State.SameVolume s s := ⟨rfl, rfl, rfl, rfl, rfl, .refl _, rfl, rfl⟩

theorem State.SameVolume.trans {s t u : State} (h : State.SameVolume s t) (k : State.SameVolume t u) :
    State.SameVolume s u :=
  ⟨k.order.trans h.order, k.vol.trans h.vol, k.step.trans h.step, k.close.trans h.close, k.opens.trans h.opens,
    h.account.trans k.account, k.sideDose.trans h.sideDose, k.volDose.trans h.volDose⟩

/-- Doses that are the same are not reduced. -/
theorem Ldu.doses_le {l m : Ldu} (hs : m.sideDose = l.sideDose) (hd : m.volDose = l.volDose) :
    l.volDose ≤ m.volDose ∧ ∀ e side, l.dose e side ≤ m.dose e side := by
  refine ⟨hd.ge, fun e side => ?_⟩
  cases side <;> simp only [Ldu.dose, hs, le_refl]

theorem Ldu.DoseLaw.of_eq {l m : Ldu} (h : l.DoseLaw) (hs : m.sideDose = l.sideDose) (hd : m.volDose = l.volDose) :
    m.DoseLaw := by unfold Ldu.DoseLaw; rw [hs, hd]; exact h

/-! ### What the volume state excludes (R18, R28, R47, R50, R58) -/

section Excluded
variable {s : State} (h : s.VolumeCoherent)
include h

theorem State.VolumeCoherent.order_none (hv : s.vau.vol ≠ .cycling) : s.occ.order = none ∧ s.occ.work = .none := by
  have ho : s.occ.order = none := by
    by_contra k
    exact hv (h.order.1 (Option.isSome_iff_ne_none.2 k))
  refine ⟨ho, ?_⟩
  by_contra k
  simpa [ho] using h.work k

theorem State.VolumeCoherent.step_none (hv : s.vau.vol ≠ .handWait) : s.vau.step = none := by
  by_contra k
  exact hv (h.step.1 (Option.isSome_iff_ne_none.2 k))

theorem State.VolumeCoherent.close_none (hv : s.vau.vol ≠ .closing) : s.vau.closeJob = none := by
  by_contra k
  exact hv (h.close.1 (Option.isSome_iff_ne_none.2 k))

theorem State.VolumeCoherent.open_none (hn : s.vau.vol ≠ .noVolume) (ho : s.vau.vol ≠ .opening) :
    s.vau.openJob = none := by
  cases hj : s.vau.openJob with
  | none => rfl
  | some j =>
    cases hf : j.phase.first with
    | true => exact absurd (h.openFirst j hj hf) hn
    | false => exact absurd (h.openSecond.1 ⟨j, hj, hf⟩) ho

/-- The second part of an opening runs in OPENING (R28). -/
theorem State.VolumeCoherent.opening {j : OpenJob} (hj : s.vau.openJob = some j) (hf : j.phase.first = false) :
    s.vau.vol = .opening := h.openSecond.1 ⟨j, hj, hf⟩

end Excluded

/-- A volume READY with nothing in flight. -/
theorem State.VolumeCoherent.of_ready {s : State} (hv : s.vau.vol = .ready) (ho : s.occ.order = none)
    (hw : s.occ.work = .none) (hs : s.vau.step = none) (hc : s.vau.closeJob = none) (hj : s.vau.openJob = none) :
    s.VolumeCoherent where
  order := by simp [ho, hv]
  work k := absurd hw k
  step := by simp [hs, hv]
  close := by simp [hc, hv]
  openFirst := by simp [hj]
  openSecond := by simp [hj, hv]

/-- A volume that waits for a hand step, with nothing else in flight (R47). -/
theorem State.VolumeCoherent.of_handWait {s : State} (hv : s.vau.vol = .handWait) (ho : s.occ.order = none)
    (hw : s.occ.work = .none) (hs : s.vau.step.isSome) (hc : s.vau.closeJob = none) (hj : s.vau.openJob = none) :
    s.VolumeCoherent where
  order := by simp [ho, hv]
  work k := absurd hw k
  step := by simp [hs, hv]
  close := by simp [hc, hv]
  openFirst := by simp [hj]
  openSecond := by simp [hj, hv]

/-- The law of the volume state over such a change: OCC's work stays, or it is that of an order in flight. -/
theorem State.SameVolume.coherent {s t : State} (h : State.SameVolume s t)
    (hw : t.occ.work = s.occ.work ∨ s.occ.order.isSome) (hs : s.VolumeCoherent) : t.VolumeCoherent where
  order := by rw [h.order, h.vol]; exact hs.order
  work k := by
    rw [h.order]
    obtain hw | hw := hw
    · exact hs.work (hw ▸ k)
    · exact hw
  step := by rw [h.step, h.vol]; exact hs.step
  close := by rw [h.close, h.vol]; exact hs.close
  openFirst := by rw [h.opens, h.vol]; exact hs.openFirst
  openSecond := by rw [h.opens, h.vol]; exact hs.openSecond

/-- t keeps the laws of the account and of the volume state, with the doses of s. -/
structure State.Steady (s t : State) : Prop where
  account : Vau.LawsKept s.vau t.vau
  volume : s.VolumeCoherent → t.VolumeCoherent
  sideDose : t.ldu.sideDose = s.ldu.sideDose
  volDose : t.ldu.volDose = s.ldu.volDose

theorem State.Steady.refl (s : State) : State.Steady s s := ⟨.refl _, id, rfl, rfl⟩

theorem State.Steady.trans {s t u : State} (h : State.Steady s t) (k : State.Steady t u) : State.Steady s u :=
  ⟨h.account.trans k.account, k.volume ∘ h.volume, k.sideDose.trans h.sideDose, k.volDose.trans h.volDose⟩

theorem State.Steady.lawful {s t : State} (h : State.Steady s t) : State.Lawful s t where
  account := h.account
  volume := h.volume
  doseLaw k := k.of_eq h.sideDose h.volDose
  doses _ _ _ _ := Ldu.doses_le h.sideDose h.volDose

theorem State.SameVolume.steady {s t : State} (h : State.SameVolume s t) (hw : t.occ.work = s.occ.work) :
    State.Steady s t := ⟨h.account, h.coherent (.inl hw), h.sideDose, h.volDose⟩

/-- States of one view agree on all of it. -/
theorem State.sameVolume_of_view {s t : State} (h : t.volumeView = s.volumeView) :
    State.SameVolume s t ∧ t.occ.work = s.occ.work := by
  simp only [State.volumeView, VolumeView.mk.injEq, Vau.mk.injEq] at h
  obtain ⟨ho, hw, ⟨hvol, -, -, -, -, -, -, -, -, hn, hm, hstep, hopen, -, -, -, hclose, -⟩, hs, hd⟩ := h
  exact ⟨⟨ho, hvol, hstep, hclose, hopen, .of_eq hm hn, hs, hd⟩, hw⟩

theorem State.steady_of_view {s t : State} (h : t.volumeView = s.volumeView) : State.Steady s t := by
  obtain ⟨h, hw⟩ := State.sameVolume_of_view h
  exact h.steady hw

/-- A change of the account alone that keeps its laws and the volume state. -/
theorem State.changeAccount_sameVolume (s : State) (f : Vau → Vau) (b : Bool) (ha : Vau.LawsKept s.vau (f s.vau))
    (hvol : (f s.vau).vol = s.vau.vol := by rfl) (hstep : (f s.vau).step = s.vau.step := by rfl)
    (hclose : (f s.vau).closeJob = s.vau.closeJob := by rfl)
    (hopen : (f s.vau).openJob = s.vau.openJob := by rfl) : State.SameVolume s (s.changeAccount f b) := by
  rw [(State.changeAccount_eq s f b).1]
  exact ⟨rfl, hvol, hstep, hclose, hopen, ha, rfl, rfl⟩

theorem State.changeAccount_work (s : State) (f : Vau → Vau) (b : Bool) :
    (s.changeAccount f b).occ.work = s.occ.work := by rw [(State.changeAccount_eq s f b).1]

/-! ### The end of an order in flight (R59, R60, R72, R76) -/

/-- From a state with an order in flight, t is a state whose laws hold again: the order runs on or has ended. -/
structure State.OrderRun (s t : State) : Prop where
  account : Vau.LawsKept s.vau t.vau
  volume : s.VolumeCoherent → s.occ.order.isSome → t.VolumeCoherent
  sideDose : t.ldu.sideDose = s.ldu.sideDose
  volDose : t.ldu.volDose = s.ldu.volDose

theorem State.SameVolume.orderRun {s t : State} (h : State.SameVolume s t) : State.OrderRun s t :=
  ⟨h.account, fun hs ho => h.coherent (.inr ho) hs, h.sideDose, h.volDose⟩

theorem State.SameVolume.trans_run {s t u : State} (h : State.SameVolume s t) (k : State.OrderRun t u) :
    State.OrderRun s u :=
  ⟨h.account.trans k.account, fun hs ho => k.volume (h.coherent (.inr ho) hs) (h.order ▸ ho),
    k.sideDose.trans h.sideDose, k.volDose.trans h.volDose⟩

theorem State.OrderRun.refl (s : State) : State.OrderRun s s := (State.SameVolume.refl s).orderRun

/-- Where OCC works, an order is in flight. -/
theorem State.OrderRun.steady {s t : State} (h : State.OrderRun s t)
    (ho : s.VolumeCoherent → s.occ.order.isSome) : State.Steady s t :=
  ⟨h.account, fun hs => h.volume hs (ho hs), h.sideDose, h.volDose⟩

/-- The end of an order by an answer leaves the volume READY, or in HAND_WAIT with a hand step. -/
theorem State.endOrder_orderRun (s : State) (code : AnswerCode) (fields : List FieldVal) {u : State} {v : VolState}
    (hu : State.SameVolume s { u with vau := { u.vau with step := s.vau.step } })
    (hv : v = .ready ∧ u.vau.step = s.vau.step ∨ v = .handWait ∧ u.vau.step.isSome) :
    State.OrderRun s (u.endOrder code fields v) := by
  cases ho : u.occ.order with
  | none =>
    have hn : s.occ.order = none := hu.order.symm.trans ho
    have h : u.endOrder code fields v = u := by simp only [State.endOrder, ho]
    rw [h]
    exact ⟨hu.account.trans (.of_eq rfl rfl), fun _ k => by simp [hn] at k, hu.sideDose, hu.volDose⟩
  | some o =>
    rw [State.endOrder_eq u o ho]
    refine ⟨hu.account.trans (.of_eq rfl rfl), fun hs k => ?_, hu.sideDose, hu.volDose⟩
    have hvol : s.vau.vol = .cycling := hs.order.1 k
    have hclose : u.vau.closeJob = none := hu.close.trans (hs.close_none (by simp [hvol]))
    have hopen : u.vau.openJob = none := hu.opens.trans (hs.open_none (by simp [hvol]) (by simp [hvol]))
    obtain ⟨rfl, hst⟩ | ⟨rfl, hst⟩ := hv
    · exact .of_ready rfl rfl rfl (hst.trans (hs.step_none (by simp [hvol]))) hclose hopen
    · exact .of_handWait rfl rfl rfl hst hclose hopen

end Sys2Proof.Machine
end

section
/-! SUPPORT. The opening cycle under the laws of an open volume: what each operation of OCC does to an order in
flight, and that its commands are steady (chapter 4). -/

namespace Sys2Proof.Machine

/-! ### Operations that leave the order in flight -/

theorem State.setOcc_sameVolume (s : State) (o : Occ) (h : o.order = s.occ.order := by rfl) :
    State.SameVolume s (s.setOcc o) := ⟨h, rfl, rfl, rfl, rfl, .refl _, rfl, rfl⟩

theorem State.setWork_sameVolume (s : State) (w : Work) : State.SameVolume s (s.setWork w) :=
  s.setOcc_sameVolume _

theorem State.toTsq_sameVolume (s : State) (m : TsqMsg) : State.SameVolume s (s.toTsq m) :=
  (State.sameVolume_of_view (s.toTsq_volumeView m)).1

theorem State.toLdu_sameVolume (s : State) (m : LduMsg) : State.SameVolume s (s.toLdu m) :=
  (State.sameVolume_of_view (s.toLdu_volumeView m)).1

theorem State.toFbk_sameVolume (s : State) (c : Chan) (m : FbkMsg) : State.SameVolume s (s.toFbk c m) :=
  (State.sameVolume_of_view (s.toFbk_volumeView c m)).1

theorem State.raise_sameVolume (s : State) (n : Note) : State.SameVolume s (s.raise n) :=
  (State.sameVolume_of_view (s.raise_volumeView n)).1

theorem State.releaseHeld_sameVolume (s : State) : State.SameVolume s s.releaseHeld :=
  (State.sameVolume_of_view (by simp)).1

theorem State.askRelease_sameVolume (s : State) (c : Chan) : State.SameVolume s (s.askRelease c) :=
  (State.sameVolume_of_view (by simp)).1

theorem State.foldl_reject_items (items : List RetakeItem) (v : Vau) :
    ∃ m, items.foldl (fun v i => v.reject i.leaf i.side) v = { v with mirror := m } := (Vau.foldl_reject items v).1

theorem State.abandonRetakes_sameVolume (s : State) : State.SameVolume s s.abandonRetakes := by
  have hl := Vau.foldl_reject_laws s.occ.retakes s.vau
  obtain ⟨m, hm⟩ := State.foldl_reject_items s.occ.retakes s.vau
  have changed := State.changeAccount_sameVolume s
    (fun v => s.occ.retakes.foldl (fun v i => v.reject i.leaf i.side) v) false hl
    (by rw [hm]) (by rw [hm]) (by rw [hm]) (by rw [hm])
  exact changed.trans (State.setOcc_sameVolume _ _ (by rw [(State.changeAccount_eq s _ false).1]))

theorem State.applyWithhold_sameVolume (s : State) (x : Exposure) (c : Chan) :
    State.SameVolume s (s.applyWithhold x c) :=
  (State.changeAccount_sameVolume s _ false (Vau.withhold_laws ..)).trans
    (State.setOcc_sameVolume ..)

theorem State.reserveOn_sameVolume (s : State) (x : Exposure) (c : Chan) : State.SameVolume s (s.reserveOn x c) :=
  (State.setOcc_sameVolume ..).trans (State.toFbk_sameVolume ..)

theorem State.askAdmission_sameVolume (s : State) (x : Exposure) : State.SameVolume s (s.askAdmission x) :=
  (State.setOcc_sameVolume ..).trans (State.toLdu_sameVolume ..)

theorem State.askFire_sameVolume (s : State) (x : Exposure) : State.SameVolume s (s.askFire x) :=
  ⟨rfl, rfl, rfl, rfl, rfl, .of_eq rfl rfl, rfl, rfl⟩

theorem State.askArms_sameVolume (s : State) (x : Exposure) (n : Nat) : State.SameVolume s (s.askArms x n) := by
  refine (s.setWork_sameVolume (.arming x .empty .empty)).trans (State.sameVolume_of_view ?_).1
  unfold State.askArms
  dsimp only
  split <;> split <;> simp

theorem State.afterArmed_sameVolume (s : State) (x : Exposure) (a b : ChanSet) :
    State.SameVolume s (s.afterArmed x a b) := by
  unfold State.afterArmed
  split
  · split
    · exact (s.setWork_sameVolume .cancelling).trans (State.toLdu_sameVolume ..)
    · split
      · exact s.askFire_sameVolume x
      · exact .refl s
  · exact .refl s

theorem State.armedAnswer_sameVolume (s : State) (x : Exposure) (a b : ChanSet) (c : Chan) (ok : Bool) :
    State.SameVolume s (s.armedAnswer x a b c ok) :=
  (s.setOcc_sameVolume _).trans (State.afterArmed_sameVolume ..)

/-! ### Operations that may end the order -/

theorem State.endReady_orderRun (s : State) (code : AnswerCode) (fields : List FieldVal) :
    State.OrderRun s (s.endOrder code fields .ready) :=
  s.endOrder_orderRun code fields (State.SameVolume.refl s) (.inl ⟨rfl, rfl⟩)

theorem State.endDone_orderRun (s : State) (f : List FieldVal) : State.OrderRun s (s.endDone f) :=
  s.endReady_orderRun ..

theorem State.endStopped_orderRun (s : State) : State.OrderRun s s.endStopped := by
  refine s.releaseHeld_sameVolume.trans_run ?_
  unfold State.endStopped
  dsimp only
  split
  · exact State.endReady_orderRun ..
  · exact (State.setOcc_sameVolume ..).orderRun

theorem State.pauseAt_orderRun (s : State) (r : Reason) (e b : Nat) : State.OrderRun s (s.pauseAt r e b) := by
  refine (s.releaseHeld_sameVolume.trans (State.abandonRetakes_sameVolume _)).trans_run ?_
  unfold State.pauseAt
  dsimp only
  split
  · refine State.endOrder_orderRun _ _ _ ?_ (.inr ⟨rfl, rfl⟩)
    exact ⟨rfl, rfl, rfl, rfl, rfl, .of_eq rfl rfl, rfl, rfl⟩
  · exact State.endReady_orderRun ..

theorem State.pause_orderRun (s : State) (r : Reason) (b : Nat) : State.OrderRun s (s.pause r b) :=
  s.pauseAt_orderRun ..

theorem State.requestTurn_orderRun (s : State) : State.OrderRun s s.requestTurn := by
  unfold State.requestTurn
  split
  · exact State.pause_orderRun ..
  · exact ((State.setOcc_sameVolume ..).trans (State.toTsq_sameVolume ..)).orderRun

theorem State.phaseEnd_orderRun (s : State) : State.OrderRun s s.phaseEnd := by
  unfold State.phaseEnd
  repeat' split
  all_goals first
    | exact .refl s
    | exact State.pause_orderRun ..
    | exact State.endDone_orderRun ..
    | exact State.requestTurn_orderRun ..
    | exact (State.raise_sameVolume ..).trans_run (State.endDone_orderRun ..)

theorem State.runTodo_orderRun (s : State) (l : List Exposure) : State.OrderRun s (s.runTodo l) := by
  induction l with
  | nil => exact (s.setOcc_sameVolume { s.occ with work := .none, todo := [] }).trans_run (State.phaseEnd_orderRun _)
  | cons x l ih =>
    unfold State.runTodo
    dsimp only
    repeat' split
    all_goals first
      | exact State.pause_orderRun ..
      | exact ih
      | exact (State.setOcc_sameVolume ..).orderRun
      | exact ((State.setOcc_sameVolume ..).trans (State.reserveOn_sameVolume ..)).orderRun

theorem State.goOn_orderRun (s : State) (p : Bool) : State.OrderRun s (s.goOn p) := by
  unfold State.goOn
  dsimp only
  split <;> exact State.runTodo_orderRun ..

theorem State.checkInterlock_orderRun (s : State) (l : List Exposure) : State.OrderRun s (s.checkInterlock l) := by
  unfold State.checkInterlock
  split
  · exact State.pause_orderRun ..
  · split
    · exact State.runTodo_orderRun ..
    · exact State.runTodo_orderRun ..
    all_goals exact ((State.setOcc_sameVolume ..).trans (State.toTsq_sameVolume ..)).orderRun

theorem State.startPhase_orderRun (s : State) : State.OrderRun s s.startPhase := by
  refine (s.setOcc_sameVolume { s.occ with auto := s.vau.resetCounts s.occ.auto, retakes := [] }).trans_run ?_
  unfold State.startPhase State.runPhase
  split
  · exact State.pause_orderRun ..
  · exact State.runTodo_orderRun ..
  · exact State.checkInterlock_orderRun ..

theorem State.stopWork_orderRun (s : State) : State.OrderRun s s.stopWork := by
  unfold State.stopWork
  split
  · exact State.endStopped_orderRun _
  · exact State.endStopped_orderRun _
  · exact State.endStopped_orderRun _
  · exact State.endStopped_orderRun _
  · exact (State.toTsq_sameVolume ..).orderRun
  · exact (State.toTsq_sameVolume ..).orderRun
  · exact (s.releaseHeld_sameVolume.trans (State.toLdu_sameVolume ..)).orderRun
  · exact (State.toLdu_sameVolume ..).orderRun
  all_goals exact .refl s

theorem State.reserved_orderRun (s : State) (x : Exposure) (c : Chan) (r : Reservation) :
    State.OrderRun s (s.reserved x c r) := by
  refine (s.setOcc_sameVolume { s.occ with held := s.occ.held.set c (some r) }).trans_run ?_
  unfold State.reserved
  dsimp only
  split
  · exact State.endStopped_orderRun _
  · split
    · split
      · exact State.pause_orderRun ..
      · exact (State.reserveOn_sameVolume ..).orderRun
    · exact (State.askAdmission_sameVolume ..).orderRun

theorem State.noRoom_orderRun (s : State) (x : Exposure) (c : Chan) : State.OrderRun s (s.noRoom x c) := by
  unfold State.noRoom
  split
  · exact State.endStopped_orderRun _
  · exact (State.setOcc_sameVolume ..).orderRun

theorem State.admissionAnswer_orderRun (s : State) (x : Exposure) (a : AdmissionReply) :
    State.OrderRun s (s.admissionAnswer x a) := by
  have cancelling (u : State) : State.OrderRun u (u.setWork .cancelling) := (u.setWork_sameVolume _).orderRun
  cases a with
  | admitted time d =>
    simp only [State.admissionAnswer]
    split
    · exact cancelling s
    · exact (s.askArms_sameVolume ..).orderRun
  | split =>
    simp only [State.admissionAnswer]
    split
    · exact cancelling s
    · exact ((s.askRelease_sameVolume _).trans (State.askRelease_sameVolume ..)).trans_run (State.runTodo_orderRun ..)
  | withheld c b =>
    simp only [State.admissionAnswer]
    refine (s.applyWithhold_sameVolume x c).trans_run ?_
    split
    · exact cancelling _
    · exact (State.askRelease_sameVolume ..).trans_run (State.goOn_orderRun ..)
  | doseLimit c b =>
    simp only [State.admissionAnswer]
    split
    · exact cancelling s
    · exact State.pause_orderRun ..
  | abandoned => exact State.endStopped_orderRun _
  | busy => exact .refl s

/-- From work in flight that awaits judgements, the phase goes on or waits (R67). -/
theorem State.afterJudged_orderRun (s : State) : State.OrderRun s s.afterJudged := by
  unfold State.afterJudged
  split
  · split
    · exact State.goOn_orderRun ..
    · exact .refl s
  · exact .refl s

theorem State.fireAnswer_orderRun (s : State) (x : Exposure) (a : FireReply) :
    State.OrderRun s (s.fireAnswer x a) := by
  have cancelling : State.OrderRun s (s.setWork .cancelling) := (s.setWork_sameVolume _).orderRun
  cases a with
  | strobeEnd =>
    simp only [State.fireAnswer]
    split
    · exact cancelling
    · split
      · exact State.pause_orderRun ..
      · split
        · exact (s.setWork_sameVolume _).trans_run (State.afterJudged_orderRun _)
        · exact State.runTodo_orderRun ..
  | notReady =>
    simp only [State.fireAnswer]
    split
    · exact cancelling
    · exact State.pause_orderRun ..
  | aborted => exact State.endStopped_orderRun _
  | notAdmitted => exact .refl s

theorem State.turned_orderRun (s : State) (r : Nat) : State.OrderRun s (s.turned r) := by
  have moved : State.SameVolume s (s.changeAccount (fun v => v.moveCursor r)) :=
    State.changeAccount_sameVolume s _ false (Vau.moveCursor_laws ..) rfl rfl rfl rfl
  unfold State.turned
  dsimp only
  split
  · exact (moved.trans (State.setOcc_sameVolume ..)).trans_run (State.endStopped_orderRun _)
  · split
    · exact (moved.trans (State.setOcc_sameVolume ..)).trans_run (State.pause_orderRun ..)
    · split
      · exact (moved.trans (State.setOcc_sameVolume ..)).trans_run (State.startPhase_orderRun _)
      · exact (moved.trans (State.setOcc_sameVolume ..)).trans_run (State.endDone_orderRun ..)

theorem State.turnCompletion_orderRun (s : State) (a : TurnReply) : State.OrderRun s (s.turnCompletion a) := by
  cases a with
  | turned r => exact s.turned_orderRun r
  | armNotReady =>
    simp only [State.turnCompletion]
    split
    · exact State.endStopped_orderRun _
    · exact State.pause_orderRun ..
  | failed reason entry => exact State.pauseAt_orderRun ..
  | stopped => exact State.endStopped_orderRun _

/-! ### Work implies an order in flight -/

/-- OCC works for an order alone (R57). -/
theorem State.OrderRun.of_work {s t : State} (h : State.OrderRun s t) (hw : s.occ.work ≠ .none) : State.Steady s t :=
  h.steady fun hs => hs.work hw

theorem State.afterJudged_steady (s : State) : State.Steady s s.afterJudged := by
  by_cases hw : s.occ.work = .none
  · have h : s.afterJudged = s := by simp only [State.afterJudged, hw]
    rw [h]; exact .refl s
  · exact s.afterJudged_orderRun.of_work hw

theorem State.pollWait_steady (s : State) : State.Steady s s.pollWait := by
  unfold State.pollWait
  split
  · next hw =>
    split
    · exact .refl s
    · exact (State.runTodo_orderRun ..).of_work (by simp [hw])
  · exact .refl s

theorem State.released_steady (s : State) (c : Chan) : State.Steady s (s.released c) := by
  have seen : State.SameVolume s (s.setOcc { s.occ with releasing := s.occ.releasing.erase c }) :=
    s.setOcc_sameVolume _
  refine (seen.steady rfl).trans ?_
  unfold State.released
  dsimp only
  split
  · next hw => exact (State.endStopped_orderRun _).of_work (by rw [hw]; exact nofun)
  · exact .refl _

theorem State.cameraFault_steady (s : State) : State.Steady s s.cameraFault := by
  unfold State.cameraFault
  split
  · exact .refl s
  · split
    · next hn _ =>
      refine (State.pause_orderRun ..).steady fun _ => ?_
      cases ho : s.occ.order <;> simp_all
    · exact (s.setOcc_sameVolume _).steady rfl

theorem State.stopOrder_steady (s : State) (i : Fin 16) : State.Steady s (s.stopOrder i) := by
  unfold State.stopOrder
  split
  · exact State.steady_of_view (by simp)
  · next ho =>
    split
    · exact (s.setOcc_sameVolume _).steady rfl
    · refine ((s.setOcc_sameVolume _).trans (State.abandonRetakes_sameVolume _)).trans_run
        (State.stopWork_orderRun _) |>.steady fun _ => by simp [ho]

/-! ### A cycle order taken (R58) -/

/-- An order accepted in READY is in flight, and the volume is CYCLING (R58). -/
theorem State.OrderRun.of_accept {s t : State} {i : Fin 16} {k : CycleKind} {n : ChanSet} {l : Nat}
    (h : State.OrderRun (s.accept i k n l) t) (hv : s.vau.vol = .ready) : State.Steady s t := by
  have accepted : Vau.LawsKept s.vau (s.accept i k n l).vau := .of_eq rfl rfl
  refine ⟨accepted.trans h.account, fun hs => h.volume ?_ rfl, h.sideDose, h.volDose⟩
  have hstep := hs.step_none (by simp [hv])
  have hclose := hs.close_none (by simp [hv])
  have hopen := hs.open_none (by simp [hv]) (by simp [hv])
  exact ⟨by simp [State.accept], fun _ => rfl, by simp [State.accept, hstep], by simp [State.accept, hclose],
    by simp [State.accept, hopen], by simp [State.accept, hopen]⟩

theorem cycleRefusal_eq_none {v : VolState} : cycleRefusal v = none ↔ v = .ready := by
  cases v <;> simp [cycleRefusal]

theorem State.cycleOrder_steady (s : State) (i : Fin 16) (f : State → State)
    (hf : s.vau.vol = .ready → State.Steady s (f s)) : State.Steady s (s.cycleOrder i f) := by
  unfold State.cycleOrder
  split
  · exact State.steady_of_view (by simp)
  · next h => exact hf (cycleRefusal_eq_none.1 h)

theorem State.turnOrder_steady (s : State) (i : Fin 16) (hv : s.vau.vol = .ready) :
    State.Steady s (s.turnOrder i) := by
  unfold State.turnOrder
  split
  · exact State.steady_of_view (by simp)
  · dsimp only
    split
    · exact (State.pause_orderRun ..).of_accept hv
    · exact (State.requestTurn_orderRun _).of_accept hv

theorem State.retakeOrder_steady (s : State) (i : Fin 16) (e : Nat) (d : Side) (p : Nat)
    (hv : s.vau.vol = .ready) : State.Steady s (s.retakeOrder i e d p) := by
  unfold State.retakeOrder
  split
  · exact State.steady_of_view (by simp)
  · split
    · exact State.steady_of_view (by simp)
    · exact (State.checkInterlock_orderRun ..).of_accept hv

/-! ### A judgement taken (R39 to R42, R68) -/

theorem State.changeAccount_steady (s : State) (f : Vau → Vau) (b : Bool) (ha : Vau.LawsKept s.vau (f s.vau))
    (hvol : (f s.vau).vol = s.vau.vol := by rfl) (hstep : (f s.vau).step = s.vau.step := by rfl)
    (hclose : (f s.vau).closeJob = s.vau.closeJob := by rfl)
    (hopen : (f s.vau).openJob = s.vau.openJob := by rfl) : State.Steady s (s.changeAccount f b) :=
  (s.changeAccount_sameVolume f b ha hvol hstep hclose hopen).steady (s.changeAccount_work f b)

theorem State.applyJudgement_steady (s : State) (j : Judgement) : State.Steady s (s.applyJudgement j) := by
  have counted : Vau.LawsKept s.vau (s.vau.mapSide j.leaf j.side .countTake) := Vau.countTake_laws ..
  have rejected := State.changeAccount_steady s
    (fun v => (v.mapSide j.leaf j.side .countTake).reject j.leaf j.side) false (counted.trans (Vau.reject_laws ..))
  unfold State.applyJudgement
  dsimp only
  split
  · split
    · exact rejected.trans (State.steady_of_view (by simp))
    · next hn =>
      have accepted := State.changeAccount_steady s (fun v =>
        { (v.mapSide j.leaf j.side .countTake).mapSide j.leaf j.side (fun r => r.accept j.panel s.vau.nextFrame j.check)
          with nextFrame := nextNumber s.vau.nextFrame }) false (counted.trans (Vau.accept_laws _ _ _ _ _ hn))
      exact accepted.trans (State.steady_of_view (by simp))
  · split
    · have taken := State.changeAccount_steady s (fun v => v.mapSide j.leaf j.side .countTake) false counted
      exact taken.trans ((State.setOcc_sameVolume ..).steady rfl)
    · exact rejected

theorem Occ.judgementSeen_keeps (o : Occ) (j : Judgement) :
    (o.judgementSeen j).order = o.order ∧ (o.judgementSeen j).work = o.work := by
  unfold Occ.judgementSeen
  split <;> exact ⟨rfl, rfl⟩

/-! ### The commands -/

section CycleCommands
variable {s t : State}

theorem execAdvance_steady (h : execAdvance s = .next t) : State.Steady s t := by
  rw [← next_inj h]
  split
  · exact (State.steady_of_view (State.nextOrder_volumeView ‹_›)).trans
      (State.cycleOrder_steady _ _ _ fun hv => (State.startPhase_orderRun _).of_accept hv)
  · exact .refl s

theorem execCapture_steady (h : execCapture s = .next t) : State.Steady s t := by
  rw [← next_inj h]
  split
  · exact (State.steady_of_view (State.nextOrder_volumeView ‹_›)).trans
      (State.cycleOrder_steady _ _ _ fun hv => (State.startPhase_orderRun _).of_accept hv)
  · exact .refl s

theorem execTurn_steady (h : execTurn s = .next t) : State.Steady s t := by
  rw [← next_inj h]
  split
  · exact (State.steady_of_view (State.nextOrder_volumeView ‹_›)).trans
      (State.cycleOrder_steady _ _ _ (State.turnOrder_steady _ _))
  · exact .refl s

theorem execRetake_steady (h : execRetake s = .next t) : State.Steady s t := by
  rw [← next_inj h]
  split
  · exact (State.steady_of_view (State.nextOrder_volumeView ‹_›)).trans
      (State.cycleOrder_steady _ _ _ (State.retakeOrder_steady _ _ _ _ _))
  · exact .refl s

theorem execStop_steady (h : execStop s = .next t) : State.Steady s t := by
  rw [← next_inj h]
  split
  · exact (State.steady_of_view (State.nextOrder_volumeView ‹_›)).trans (State.stopOrder_steady _ _)
  · exact .refl s

theorem execReservationAnswer_steady {c : Chan} (h : execReservationAnswer c s = .next t) : State.Steady s t := by
  rw [← next_inj h]
  split
  · refine (State.steady_of_view (State.nextMsg_volumeView ‹_›)).trans ?_
    split
    · next hw =>
      split
      · exact (State.reserved_orderRun ..).of_work (by simp [hw])
      · exact .refl _
    · exact .refl _
  · refine (State.steady_of_view (State.nextMsg_volumeView ‹_›)).trans ?_
    split
    · next hw =>
      split
      · exact (State.noRoom_orderRun ..).of_work (by simp [hw])
      · exact .refl _
    · exact .refl _
  · exact State.steady_of_view (State.nextMsg_volumeView ‹_›)
  · exact (State.steady_of_view (State.nextMsg_volumeView ‹_›)).trans (State.released_steady _ _)
  · exact .refl s

theorem execGrantReport_steady {c : Chan} (h : execGrantReport c s = .next t) : State.Steady s t := by
  rw [← next_inj h]
  split
  · refine (State.steady_of_view (State.nextMsg_volumeView ‹_›)).trans ?_
    split
    · next hw =>
      split
      · split
        · exact (State.pause_orderRun ..).of_work (by simp [hw])
        · exact ((State.setOcc_sameVolume ..).trans
            (State.reserveOn_sameVolume ..)).orderRun.of_work (by simp [hw])
      · exact .refl _
    · exact .refl _
  · exact .refl s

theorem execRoomWatchExpiry_steady (h : execRoomWatchExpiry s = .next t) : State.Steady s t := by
  rw [← next_inj h]
  split
  · next hw =>
    split
    · exact (State.pause_orderRun ..).of_work (by simp [hw])
    · exact .refl s
  · exact .refl s

theorem execAdmissionAnswer_steady (h : execAdmissionAnswer s = .next t) : State.Steady s t := by
  rw [← next_inj h]
  split
  · refine (State.steady_of_view (State.nextMsg_volumeView ‹_›)).trans ?_
    split
    · next hw => exact (State.admissionAnswer_orderRun ..).of_work (by simp [hw])
    · exact .refl _
  · exact .refl s

theorem execArmedAnswer_steady {c : Chan} (h : execArmedAnswer c s = .next t) : State.Steady s t := by
  rw [← next_inj h]
  split
  · refine (State.steady_of_view (State.nextMsg_volumeView ‹_›)).trans ?_
    split
    · next hw => exact (State.armedAnswer_sameVolume ..).orderRun.of_work (by simp [hw])
    · exact .refl _
  · exact .refl s

theorem execFireAnswer_steady (h : execFireAnswer s = .next t) : State.Steady s t := by
  rw [← next_inj h]
  split
  · refine (State.steady_of_view (State.nextMsg_volumeView ‹_›)).trans ?_
    split
    · next hw => exact (State.fireAnswer_orderRun ..).of_work (by simp [hw])
    · exact .refl _
  · exact .refl s

theorem execCancelAnswer_steady (h : execCancelAnswer s = .next t) : State.Steady s t := by
  rw [← next_inj h]
  split
  · refine (State.steady_of_view (State.nextMsg_volumeView ‹_›)).trans ?_
    split
    · next hw => exact (State.endStopped_orderRun _).of_work (by simp [hw])
    · exact .refl _
  · exact .refl s

theorem execPlatenCompletion_steady (h : execPlatenCompletion s = .next t) : State.Steady s t := by
  rw [← next_inj h]
  split
  · refine (State.steady_of_view (State.nextMsg_volumeView ‹_›)).trans ?_
    split
    · next hw =>
      refine State.OrderRun.of_work ?_ (by simp [hw])
      split
      · exact State.pause_orderRun ..
      · split
        · exact State.endStopped_orderRun _
        · exact State.runTodo_orderRun ..
    · exact .refl _
  · exact .refl s

theorem execTurnCompletion_steady (h : execTurnCompletion s = .next t) : State.Steady s t := by
  rw [← next_inj h]
  split
  · refine (State.steady_of_view (State.nextMsg_volumeView ‹_›)).trans ?_
    split
    · next hw => exact (State.turnCompletion_orderRun ..).of_work (by simp [hw])
    · exact .refl _
  · exact .refl s

theorem execCameraFaultReport_steady {c : Chan} (h : execCameraFaultReport c s = .next t) : State.Steady s t := by
  rw [← next_inj h]
  split
  · exact (State.steady_of_view (State.nextMsg_volumeView ‹_›)).trans (State.cameraFault_steady _)
  · exact .refl s

theorem execJudgementTaken_steady {c : Chan} (h : execJudgementTaken c s = .next t) : State.Steady s t := by
  rw [← next_inj h]
  split
  · exact .refl s
  · next j rest _ =>
    have taken : State.Steady s { s with vau := { s.vau with judgements := rest } } := State.steady_of_view rfl
    obtain ⟨ho, hw⟩ := Occ.judgementSeen_keeps
      (State.applyJudgement { s with vau := { s.vau with judgements := rest } } j).occ j
    exact (taken.trans (State.applyJudgement_steady _ j)).trans
      (((State.setOcc_sameVolume _ _ ho).steady hw).trans
        ((State.afterJudged_steady _).trans (State.pollWait_steady _)))

/-! The commands of the cameras that may end OCC's wait for a channel (R63). -/

theorem execResultWriteComplete_steady {c : Chan} (h : execResultWriteComplete c s = .next t) :
    State.Steady s t := by
  rw [← next_inj h]
  dsimp only
  split
  · split
    · exact .refl s
    · exact (State.steady_of_view (by simp)).trans (State.pollWait_steady _)
  · exact .refl s

theorem execFrameWatchExpiry_steady {c : Chan} (h : execFrameWatchExpiry c s = .next t) : State.Steady s t := by
  rw [← next_inj h]
  dsimp only
  split
  · split
    · refine State.Steady.trans (State.steady_of_view ?_) (State.pollWait_steady _)
      split <;> simp
    · exact .refl s
  · exact .refl s

/-! The commands of the sequencer that record a failure in the account (R38, R85, R91). -/

theorem State.failAttempt_steady (s : State) (r : Nat) (x : LiftReading) : State.Steady s (s.failAttempt r x) := by
  unfold State.failAttempt
  exact (State.steady_of_view (State.setTsq_volumeView ..)).trans
    (State.changeAccount_steady _ (fun v => v.failedAttempt r x) false (Vau.failedAttempt_laws ..))

theorem State.dropLeaf_steady (s : State) (r : Nat) : State.Steady s (s.dropLeaf r) := by
  have held : State.Steady s (s.setTsq { s.tsq with vacuum := .off }).holdArm := State.steady_of_view (by simp)
  exact (held.trans (State.changeAccount_steady _ (fun v => v.setUncertain r true) false
    (Vau.setUncertain_laws ..))).trans (State.steady_of_view (State.answerTurn_volumeView ..))

/-- The end of an event at the sequencer adds only the fall of the interlock signal (R80). -/
theorem State.tsqNext_steady {a : State} (h : s.tsqNext a = .next t) (ha : State.Steady s a) : State.Steady s t := by
  rw [← next_inj h]
  exact ha.trans (State.steady_of_view (by simp))

theorem execVacuumSwitchOpens_steady (h : execVacuumSwitchOpens s = .next t) : State.Steady s t := by
  refine State.tsqNext_steady h ?_
  split
  · exact State.steady_of_view (by simp)
  · exact State.steady_of_view (by simp)
  · exact State.failAttempt_steady ..
  · exact State.dropLeaf_steady ..
  · exact .refl s

theorem execReadSettled_steady {r : LeafReading} (h : execReadSettled r s = .next t) : State.Steady s t := by
  refine State.tsqNext_steady h ?_
  split
  · split
    · exact State.steady_of_view (by simp)
    all_goals exact State.failAttempt_steady ..
  · exact .refl s

end CycleCommands

end Sys2Proof.Machine
end

section
/-! SUPPORT. OPEN VOLUME up to its ledger writes (R26 to R31): the orders that wait, the sheet header, the plan, and
the ledger of a fresh and of a resumed volume. -/

namespace Sys2Proof.Machine

/-! ### The orders that wait (R26) -/

/-- With no volume open the first order that waits has the sheet header read. -/
theorem State.startOpens_of_noVolume {s : State} (h : s.vau.vol = .noVolume) (l : List (Fin 16)) :
    s.startOpens l
      = { s with vau := { s.vau with openJob := l.head?.map (fun i => ⟨i, .header⟩), openWaiting := l.tail } } := by
  cases l with
  | nil => rfl
  | cons i l => rw [State.startOpens, if_pos h]; rfl

/-- With a volume open every order that waits is answered VOLUME_OPEN, and none is left. -/
theorem State.startOpens_of_open {s : State} (h : s.vau.vol ≠ .noVolume) (l : List (Fin 16)) :
    s.startOpens l = { l.foldl (fun u j => u.answer j .volumeOpen) s with
      vau := { s.vau with openJob := none, openWaiting := [] } } := by
  induction l generalizing s with
  | nil => rfl
  | cons i l ih => rw [State.startOpens, if_neg h, ih (s := s.answer i .volumeOpen) h]; rfl

theorem execOpenVolume_of_order {s s' : State} {i : Fin 16} (h : s.nextOrder .vau = some (⟨i, .openVolume⟩, s')) :
    (s.vau.openJob ≠ none → execOpenVolume s
      = .next { s' with vau := { s'.vau with openWaiting := s.vau.openWaiting ++ [i] } })
    ∧ (s.vau.openJob = none → execOpenVolume s = .next (s'.startOpens [i])) := by
  have hv : s'.vau = s.vau := by rw [State.nextOrder_eq h]
  unfold execOpenVolume
  rw [h]
  dsimp only
  rw [hv]
  cases s.vau.openJob with
  | none => exact ⟨fun k => absurd rfl k, fun _ => rfl⟩
  | some j => exact ⟨fun _ => by rw [← hv]; rfl, nofun⟩

/-! ### The sheet header (R26, R27, Table 11-8) -/

theorem lengthPasses_iff (h : SheetHeader) : lengthPasses h = true ↔ 3 ≤ h.length ∧ h.length ≤ 1024 := by
  simp [lengthPasses, within]

theorem execSheetHeaderRead_of_job {b : List Byte} {i : Fin 16} {s : State}
    (hj : s.vau.openJob = some ⟨i, .header⟩) : execSheetHeaderRead b s = .next (if lengthPasses (parseHeader b)
      then s.setVau { s.vau with openJob := some ⟨i, .plan (parseHeader b)⟩ }
      else s.endOpen i .badPlan [⟨70, 2, headerIndex⟩]) := by
  simp only [execSheetHeaderRead, hj]

/-- Settles O21: the orders that wait, the order taken, and the check of the plan length. -/
theorem openVolumeReadsTheSheet : Obligations.OpenVolumeReadsTheSheet := by
  refine ⟨fun s l => ⟨fun h => State.startOpens_of_noVolume h l, fun h => State.startOpens_of_open h l⟩,
    fun s s' i h => execOpenVolume_of_order h, fun b i s hj => ⟨fun hlo hhi => ?_, fun h => ?_⟩⟩
  · show execSheetHeaderRead b s = _
    rw [execSheetHeaderRead_of_job hj, if_pos ((lengthPasses_iff _).2 ⟨hlo, hhi⟩)]; rfl
  · have bad : ¬ lengthPasses (parseHeader b) = true := by
      rw [lengthPasses_iff]
      show ¬ (3 ≤ leNat b 38 2 ∧ leNat b 38 2 ≤ 1024)
      omega
    show execSheetHeaderRead b s = _
    rw [execSheetHeaderRead_of_job hj, if_neg bad]; rfl

/-! ### Records written whole during OPENING (R36, R173) -/

/-- The write of a whole ledger entry. -/
def entryWhole (base : Word32) (e : Nat) (x : LedgerEntry) : Nat × List Byte :=
  (base.toNat * 4096 + 0x8100 + 192 * e, entryBytes x)

theorem State.writeEntryWhole_eq (s : State) (e : Nat) (x : LedgerEntry) :
    s.writeEntryWhole e x = { s with host := s.host.issued .vau [entryWhole s.exp.base e x] } := by
  simp only [State.writeEntryWhole, State.issue_eq, State.area, ledgerEntryOffset, entryWhole, Nat.add_assoc]

theorem State.writeHeaderWhole_eq (s : State) (dose : Nat) : s.writeHeaderWhole dose = { s with
    host := s.host.issued .vau [(s.exp.base.toNat * 4096 + 0x8000, headerBytes s.vau dose)] } := rfl

/-- Entries written whole in the order of a list, and then the header. -/
theorem State.writeWhole_eq {α : Type} (s : State) (l : List α) (f : α → Nat) (g : α → LedgerEntry) (dose : Nat) :
    (l.foldl (fun s x => s.writeEntryWhole (f x) (g x)) s).writeHeaderWhole dose = { s with
      host := s.host.issued .vau (l.map (fun x => entryWhole s.exp.base (f x) (g x))
        ++ [(s.exp.base.toNat * 4096 + 0x8000, headerBytes s.vau dose)]) } := by
  rw [State.foldl_issues (fun s x => s.writeEntryWhole (f x) (g x)) (fun b x => [entryWhole b (f x) (g x)])
    (fun s x => State.writeEntryWhole_eq ..), ← List.map_eq_flatMap, State.writeHeaderWhole_eq]
  dsimp only
  rw [HostSide.issued_append]

/-- A list mapped with its indexes is a map of the indexes. -/
theorem mapFrom_eq_map {α β : Type} (f : Nat → α → β) (l : List α) (d : α) :
    mapFrom f 0 l = (List.range l.length).map (fun e => f e (l.getD e d)) := by
  refine List.ext_getElem? fun e => ?_
  rw [mapFrom_get, List.getElem?_map]
  by_cases h : e < l.length
  · simp [h]
  · simp [h]

/-! ### The plan read (R27 to R30) -/

section PlanRead
variable {b r : List Byte} {i : Fin 16} {h : SheetHeader} {s : State} (hj : s.vau.openJob = some ⟨i, .plan h⟩)
include hj

theorem execPlanRead_of_flag (hr : 1 < h.resume) : execPlanRead b r s
    = .next ((s.answer i .badPlan [⟨70, 2, 65535⟩]).startOpens s.vau.openWaiting) := by
  have bad : resumePasses h = false := by simp [resumePasses, hr]
  simp only [execPlanRead, hj, bad]; rfl

theorem execPlanRead_of_error {e : Nat} (hr : h.resume ≤ 1) (hp : parsePlan b h.length = .error e) :
    execPlanRead b r s = .next ((s.answer i .badPlan [⟨70, 2, e⟩]).startOpens s.vau.openWaiting) := by
  have good : resumePasses h = true := by simp [resumePasses, hr]
  simp only [execPlanRead, hj, good, hp]; rfl

theorem execPlanRead_of_plan {plan : List PlanEntry} (hr : h.resume ≤ 1) (hp : parsePlan b h.length = .ok plan) :
    execPlanRead b r s = .next (if !s.pfs.loaded then s.endOpen i .noTables
      else match s.pfs.lookup h.key with
        | none => s.endOpen i .noClass
        | some p => if h.resume = 0 then (s.enterOpening h plan p).freshLedger i
            else (s.enterOpening h plan p).resumeLedger i r) := by
  have good : resumePasses h = true := by simp [resumePasses, hr]
  simp only [execPlanRead, hj, good, hp]; rfl

end PlanRead

/-- A fresh ledger: its entries in plan order and then the header, written whole (R29). -/
theorem State.freshLedger_eq (s : State) (i : Fin 16) :
    let v := { s.vau with mirror := freshMirror s.vau.plan, nextFrame := 1, openJob := some ⟨i, .writes 0⟩ }
    s.freshLedger i = { s with
      vau := v
      host := s.host.issued .vau ((List.range s.vau.plan.length).map (fun e => entryWhole s.exp.base e (v.entry e))
        ++ [(s.exp.base.toNat * 4096 + 0x8000, headerBytes v 0)]) } := by
  intro v
  have hn : (freshMirror s.vau.plan).length = s.vau.plan.length := mapFrom_length ..
  unfold State.freshLedger
  dsimp only
  rw [State.writeWhole_eq _ _ Prod.fst Prod.snd, mapFrom_eq_map _ _ .absent, hn, List.map_map]
  rfl

/-- The close record's valid flag is cleared when its key is the sheet's (R30, R55). -/
theorem State.resumeLedger_eq (s : State) (i : Fin 16) (r : List Byte) : s.resumeLedger i r = { s with
    vau := { s.vau with openJob := some ⟨i, .ledger⟩ }
    host := s.host.issued .vau (if leNat r 32 4 = s.vau.key then
      [(s.exp.base.toNat * 4096 + 0x1000 + 38, [0])] else []) } := by
  unfold State.resumeLedger
  dsimp only
  show (if leNat r 32 4 = s.vau.key then _ else _) = _
  split
  · rfl
  · rw [HostSide.issued_nil]; rfl

/-- Settles O22: the refusals in their order, and the volume in OPENING with its fresh or its resumed ledger. -/
theorem planReadOpensOrRefuses : Obligations.PlanReadOpensOrRefuses := by
  intro b r i h s hj
  refine ⟨execPlanRead_of_flag hj, fun e hr hp => execPlanRead_of_error hj hr hp, fun plan hr hp hl => ?_,
    fun plan hr hp hl hk => ?_, fun plan p hr hp hl hk => ?_⟩
  · show execPlanRead b r s = _
    rw [execPlanRead_of_plan hj hr hp, hl]; rfl
  · show execPlanRead b r s = _
    rw [execPlanRead_of_plan hj hr hp, hl, hk]; rfl
  · have run : exec (.planRead b r) s = .next (if h.resume = 0 then (s.enterOpening h plan p).freshLedger i
        else (s.enterOpening h plan p).resumeLedger i r) := by
      show execPlanRead b r s = _
      rw [execPlanRead_of_plan hj hr hp, hl, hk]; rfl
    by_cases h0 : h.resume = 0
    · rw [if_pos h0, State.freshLedger_eq] at run
      exact ⟨_, run, rfl, rfl, rfl, fun _ => ⟨rfl, rfl, rfl, rfl⟩, fun h1 => by omega⟩
    · rw [if_neg h0, State.resumeLedger_eq] at run
      exact ⟨_, run, rfl, rfl, rfl, fun k => absurd k h0, fun _ => ⟨rfl, rfl, rfl, rfl⟩⟩

/-! ### The ledger read back (R30, R31) -/

/-- The sum of the side doses of a mirror, entry by entry (R31, R99). -/
theorem mirrorDose_eq (mirror : List LedgerEntry) :
    mirrorDose mirror = (mirror.map (fun x => x.verso.dose + x.recto.dose)).sum := by
  induction mirror with
  | nil => rfl
  | cons x l ih => simp [mirrorDose, sidesOf] at ih ⊢; omega

/-- The entries that a resume writes back: those reset or corrected, and those that skip marking changed
(log 28). -/
theorem resumed_entries (plan : List PlanEntry) (b : List Byte) (marked : List LedgerEntry)
    (hl : marked.length = plan.length) :
    (mapFrom (fun e x => (e, x)) 0 (marked.zip (mapFrom (reconcile b) 0 plan))).filter
        (fun p => p.2.2.2 || p.2.1 != p.2.2.1)
      = ((List.range plan.length).filter (fun e => (reconcile b e (planAt plan e)).2
          || marked.getD e .absent != (reconcile b e (planAt plan e)).1)).map
        (fun e => (e, marked.getD e .absent, reconcile b e (planAt plan e))) := by
  have hz : mapFrom (fun e x => (e, x)) 0 (marked.zip (mapFrom (reconcile b) 0 plan))
      = (List.range plan.length).map (fun e => (e, marked.getD e .absent, reconcile b e (planAt plan e))) := by
    refine List.ext_getElem? fun e => ?_
    rw [mapFrom_get, List.getElem?_map]
    by_cases he : e < plan.length
    · have hm : e < marked.length := hl ▸ he
      simp [he, hm, planAt, List.getElem?_zip_eq_some, mapFrom_get]
    · have hm : ¬ e < (marked.zip (mapFrom (reconcile b) 0 plan)).length := by
        rw [List.length_zip, mapFrom_length]; omega
      rw [List.getElem?_eq_none (by omega), List.getElem?_eq_none (by simpa using he)]; rfl
  rw [hz, List.filter_map]
  rfl

/-- LEDGER_READ_COMPLETE of a resumed volume, whole (R30, R31; log 28). -/
theorem State.resume_eq (s : State) (i : Fin 16) (h : HeaderRead) (b : List Byte) :
    let read := readMirror s.vau.plan b
    let cursor := if inOpeningRange s.vau.plan h.cursor then h.cursor else 0
    let dose := max h.volDose (mirrorDose read)
    let v := { s.vau with
      mirror := skipMark s.vau.plan 0 cursor read, cursor := cursor, nextFrame := resumedNumber h.nextFrame read
      openJob := some ⟨i, .writes dose⟩ }
    s.resume i h b = { s with
      vau := v
      host := s.host.issued .vau (((List.range s.vau.plan.length).filter (fun e =>
            (reconcile b e (planAt s.vau.plan e)).2 || v.entry e != (reconcile b e (planAt s.vau.plan e)).1)).map
          (fun e => entryWhole s.exp.base e (v.entry e))
        ++ [(s.exp.base.toNat * 4096 + 0x8000, headerBytes v dose)]) } := by
  intro read cursor dose v
  have hl : (skipMark s.vau.plan 0 cursor read).length = s.vau.plan.length := by
    rw [skipMark, mapFrom_length]; simp [read, readMirror, mapFrom_length]
  unfold State.resume
  dsimp only
  rw [State.writeWhole_eq _ _ Prod.fst (fun p : Nat × LedgerEntry × LedgerEntry × Bool => p.2.1)]
  rw [resumed_entries _ _ _ hl]
  rw [List.map_map]
  rfl

/-- Settles O24: the resumed values with their writes, and what the largest number and the dose are. -/
theorem ledgerReadResumesTheVolume : Obligations.LedgerReadResumesTheVolume := by
  refine ⟨fun h b i s hj => ?_, fun mirror => ⟨fun x hx side p hp => ?_, fun hn => ?_, ?_⟩⟩
  · have run : exec (.ledgerReadComplete h b) s = .next (s.resume i (parseLedgerHeader h) b) := by
      show execLedgerReadComplete h b s = _
      simp only [execLedgerReadComplete, hj]
    rw [State.resume_eq] at run
    refine ⟨_, run, rfl, rfl, rfl, fun hc => if_pos hc, fun hc => if_neg (by simp [parseLedgerHeader, hc]), rfl,
      rfl, rfl, fun hz => resumedNumber_exhausted hz, fun h0 hl => resumedNumber_next h0 hl⟩
  · exact (largestFrame_spec mirror).1 _ (mem_frameNumbers.2 ⟨x, hx, side, p, hp, rfl⟩)
  · exact mem_frameNumbers.1 ((largestFrame_spec mirror).2 hn)
  · exact mirrorDose_eq mirror

end Sys2Proof.Machine
end

section
/-! SUPPORT. The end of an opening (R32, R33): the channels resynchronised, the banks, the light unit and OCC set up,
and the volume READY. -/

namespace Sys2Proof.Machine

/-! ### The banks after a resynchronisation (R32, R147, R150) -/

/-- The return of a descriptor changes the notes and the banks alone (R147). -/
theorem State.releaseDesc_eq (s : State) (c : Chan) (b : BankId) (i : Fin 4) : s.releaseDesc c b i = { s with
    exp := { s.exp with note := (s.releaseDesc c b i).exp.note }, fbk := (s.releaseDesc c b i).fbk } := by
  unfold State.releaseDesc
  dsimp only
  split
  · split <;> rfl
  · rfl

theorem takeReturned_eq (s : State) (c : Chan) (a : State) : takeReturned s c a = { a with
    exp := { a.exp with note := (takeReturned s c a).exp.note }, fbk := (takeReturned s c a).fbk } := by
  unfold takeReturned
  cases (s.cch.get c).take with
  | none => rfl
  | some r => exact State.releaseDesc_eq ..

/-- What the return of a channel's descriptor does to the banks and the notes rests on these and on its take. -/
theorem takeReturned_banks {s t a b : State} {c : Chan} (ht : (t.cch.get c).take = (s.cch.get c).take)
    (hf : b.fbk = a.fbk) (hn : b.exp.note = a.exp.note) : (takeReturned t c b).fbk = (takeReturned s c a).fbk
      ∧ (takeReturned t c b).exp.note = (takeReturned s c a).exp.note := by
  unfold takeReturned
  rw [ht]
  cases (s.cch.get c).take with
  | none => exact ⟨hf, hn⟩
  | some r => exact State.releaseDesc_banks _ _ _ _ _ hf hn

/-- A channel resynchronised, and the descriptor of its take returned (R32). -/
theorem State.resyncChannel_eq (s : State) (c : Chan) :
    s.resyncChannel c = takeReturned s c ((s.landBody c).setCch c (s.cch.get c).resync) := by
  unfold State.resyncChannel takeReturned
  dsimp only
  split
  · next h => rw [h]; rfl
  · next h => rw [h]; rfl

/-- The banks once both channels are resynchronised: the descriptors of their takes returned, and bank A active. -/
def State.banksSet (s : State) : State :=
  ((takeReturned s .right (takeReturned s .left s)).activateA .left).activateA .right

theorem State.activateA_banks {s t : State} (c : Chan) (hf : t.fbk = s.fbk) (hn : t.exp.note = s.exp.note) :
    (t.activateA c).fbk = (s.activateA c).fbk ∧ (t.activateA c).exp.note = (s.activateA c).exp.note := by
  refine ⟨?_, hn⟩
  unfold State.activateA
  rw [State.setFbk_fbk, State.setFbk_fbk, hf]

/-- The banks so set rest on the banks, the notes and the takes alone. -/
theorem State.banksSet_congr {s t : State} (hc : t.cch = s.cch) (hf : t.fbk = s.fbk)
    (hn : t.exp.note = s.exp.note) : t.banksSet.fbk = s.banksSet.fbk ∧ t.banksSet.exp.note = s.banksSet.exp.note := by
  obtain ⟨lf, ln⟩ := takeReturned_banks (s := s) (c := .left) (by rw [hc]) hf hn
  obtain ⟨rf, rn⟩ := takeReturned_banks (s := s) (t := t) (c := .right) (by rw [hc]) lf ln
  obtain ⟨af, an⟩ := State.activateA_banks .left rf rn
  exact State.activateA_banks .right af an

/-- The controller as the end of the ledger work sets it, but for the banks and the notes (R32; logs 5, 35). -/
theorem State.setUp_eq (s : State) (d : Nat) : s.setUp d = { s with
    exp := { s.exp with note := s.banksSet.exp.note }
    ldu := { s.ldu with
      sideDose := s.vau.mirror.map (fun e => (e.verso.dose, e.recto.dose))
      volDose := max d (doseSum (s.vau.mirror.map (fun e => (e.verso.dose, e.recto.dose)))) }
    occ := { Occ.reset with
      auto := s.vau.mirror.map (fun _ => (0, 0)), inbox := s.occ.inbox, releasing := s.occ.releasing }
    cch := ⟨s.cch.left.resync, s.cch.right.resync⟩
    fbk := s.banksSet.fbk
    host := ((s.landBody .left).landBody .right).host } := by
  unfold State.setUp
  dsimp only
  generalize hu : ({ s with ldu := _, occ := _ } : State) = u
  have hexp : u.exp = s.exp := by rw [← hu]
  have hcch : u.cch = s.cch := by rw [← hu]
  have hfbk : u.fbk = s.fbk := by rw [← hu]
  obtain ⟨hf, hn⟩ : (u.resyncChannel .left).fbk = (takeReturned s .left s).fbk
      ∧ (u.resyncChannel .left).exp.note = (takeReturned s .left s).exp.note := by
    rw [State.resyncChannel_eq]
    exact takeReturned_banks (by rw [hcch]) hfbk (by rw [← hexp]; rfl)
  have hleft : u.resyncChannel .left = { u with
      exp := { u.exp with note := (takeReturned s .left s).exp.note }
      cch := ⟨u.cch.left.resync, u.cch.right⟩, fbk := (takeReturned s .left s).fbk
      host := (u.landBody .left).host } := by
    rw [← hf, ← hn, State.resyncChannel_eq, takeReturned_eq]; rfl
  rw [hleft]
  generalize hw : ({ u with exp := _, cch := _, fbk := _, host := _ } : State) = w
  have hwtake : (w.cch.get .right).take = (s.cch.get .right).take := by rw [← hw, hcch]; rfl
  obtain ⟨kf, kn⟩ : (w.resyncChannel .right).fbk = (takeReturned s .right (takeReturned s .left s)).fbk
      ∧ (w.resyncChannel .right).exp.note = (takeReturned s .right (takeReturned s .left s)).exp.note := by
    rw [State.resyncChannel_eq]
    exact takeReturned_banks hwtake (by rw [← hw]; rfl) (by rw [← hw]; rfl)
  have hright : w.resyncChannel .right = { w with
      exp := { w.exp with note := (takeReturned s .right (takeReturned s .left s)).exp.note }
      cch := ⟨w.cch.left, w.cch.right.resync⟩, fbk := (takeReturned s .right (takeReturned s .left s)).fbk
      host := (w.landBody .right).host } := by
    rw [← kf, ← kn, State.resyncChannel_eq, takeReturned_eq]; rfl
  rw [hright, ← hw, ← hu]
  rfl

/-! ### Descriptors and active banks (R32, R145, R150) -/

/-- The descriptors after the return of a take: each is as before, or FREE. -/
theorem takeReturned_desc (s : State) (c d : Chan) (a : State) (b : BankId) (j : Fin 4) :
    (((takeReturned s c a).fbk.get d).bank b).desc j = ((a.fbk.get d).bank b).desc j
      ∨ (((takeReturned s c a).fbk.get d).bank b).desc j = .free := by
  unfold takeReturned
  cases (s.cch.get c).take with
  | none => exact .inl rfl
  | some r =>
    simp only [Option.elim_some, State.releaseDesc_desc]
    split
    · exact .inr rfl
    · exact .inl rfl

/-- The return of a channel's take leaves the other channel alone. -/
theorem takeReturned_other (s : State) {c d : Chan} (a : State) (h : d ≠ c) :
    (takeReturned s c a).fbk.get d = a.fbk.get d := by
  unfold takeReturned
  cases (s.cch.get c).take with
  | none => rfl
  | some r => exact State.releaseDesc_other _ _ _ _ _ h

/-- The RESERVED descriptor of a channel's take is FREE once it is returned (R147). -/
theorem takeReturned_self {s : State} {c : Chan} {r : TakeRec} (a : State) (hr : (s.cch.get c).take = some r)
    (h : ((a.fbk.get c).bank r.desc.bank).desc r.desc.index = .reserved) :
    (((takeReturned s c a).fbk.get c).bank r.desc.bank).desc r.desc.index = .free := by
  unfold takeReturned
  rw [hr]
  exact State.releaseDesc_self _ _ _ _ h

theorem State.activateA_desc (s : State) (c d : Chan) (b : BankId) (j : Fin 4) :
    (((s.activateA c).fbk.get d).bank b).desc j = ((s.fbk.get d).bank b).desc j := by
  unfold State.activateA
  rw [State.setFbk_get]
  split
  · next h => subst h; cases b <;> rfl
  · rfl

theorem State.banksSet_desc (s : State) (d : Chan) (b : BankId) (j : Fin 4) :
    ((s.banksSet.fbk.get d).bank b).desc j
      = (((takeReturned s .right (takeReturned s .left s)).fbk.get d).bank b).desc j := by
  rw [State.banksSet, State.activateA_desc, State.activateA_desc]

/-- The descriptor of a take that was outstanding is FREE at the end of the opening (R32). -/
theorem State.banksSet_free {s : State} {c : Chan} {r : TakeRec} (hr : (s.cch.get c).take = some r)
    (h : ((s.fbk.get c).bank r.desc.bank).desc r.desc.index = .reserved) :
    ((s.banksSet.fbk.get c).bank r.desc.bank).desc r.desc.index = .free := by
  rw [State.banksSet_desc]
  cases c with
  | left =>
    rw [takeReturned_other _ _ (by decide)]
    exact takeReturned_self s hr h
  | right =>
    refine takeReturned_self _ hr ?_
    rw [takeReturned_other _ _ (by decide)]
    exact h

/-- Bank A is active in both channels (R32). -/
theorem State.banksSet_active (s : State) (c : Chan) : (s.banksSet.fbk.get c).active = .bankA := by
  cases c <;> rfl

theorem Bank.has_eq_false {b : Bank} {d : DescState} : b.has d = false ↔ ∀ i, b.desc i ≠ d := by
  simp [Bank.has]

/-- A bank A without a FILLED descriptor has none when the opening ends. -/
theorem State.banksSet_filled {s : State} {c : Chan} (h : (s.fbk.get c).bankA.has .filled = false) :
    (s.banksSet.fbk.get c).bankA.has .filled = false := by
  rw [Bank.has_eq_false] at h ⊢
  intro i
  show ((s.banksSet.fbk.get c).bank .bankA).desc i ≠ .filled
  rw [State.banksSet_desc]
  obtain k | k := takeReturned_desc s .right c (takeReturned s .left s) .bankA i
  · rw [k]
    obtain k | k := takeReturned_desc s .left c s .bankA i
    · rw [k]; exact h i
    · rw [k]; exact nofun
  · rw [k]; exact nofun

/-- A channel whose active bank holds no FILLED descriptor makes no partial hand-over (R150). -/
theorem State.partialHandOverOf_idle {s : State} {c : Chan}
    (h : ((s.fbk.get c).bank (s.fbk.get c).active).has .filled = false) : s.partialHandOverOf c = s := by
  simp [State.partialHandOverOf, h]

/-- A partial hand-over leaves the other channel alone (R150). -/
theorem State.partialHandOverOf_other (s : State) {c d : Chan} (h : d ≠ c) :
    (s.partialHandOverOf c).fbk.get d = s.fbk.get d := by
  unfold State.partialHandOverOf
  dsimp only
  split
  · split
    · rw [State.setFbk_get, if_neg h]
    · show (State.setFbk _ c _).fbk.get d = _
      rw [State.setFbk_get, if_neg h]
  · rfl

/-- A channel whose active bank holds no FILLED descriptor is as before on entry into a state of rest (R150). -/
theorem State.enterRest_idle {s : State} {c : Chan} (v : VolState)
    (h : ((s.fbk.get c).bank (s.fbk.get c).active).has .filled = false) :
    (s.enterRest v).fbk.get c = s.fbk.get c := by
  unfold State.enterRest State.partialHandOver
  cases c with
  | left =>
    rw [State.partialHandOverOf_other _ (by decide),
      State.partialHandOverOf_idle (s := { s with vau := { s.vau with vol := v } }) h]
  | right =>
    have other : (State.partialHandOverOf { s with vau := { s.vau with vol := v } } .left).fbk.get .right
        = s.fbk.get .right := State.partialHandOverOf_other _ (by decide)
    rw [State.partialHandOverOf_idle (by rw [other]; exact h), other]

/-! ### The channels (R32, R139) -/

theorem Cch.resync_eq (x : Cch) : x.resync = { x with
    state := .idle, takeId := 0, lastDone := none, lost := 0, syncPending := true, take := none
    frameWatch := none, result := none, intake := x.abandonFrame } := rfl

/-- A frame being taken is counted off and spurned. -/
theorem Cch.abandonFrame_taking {x : Cch} (h : x.intake = .taking) :
    x.abandonFrame = .discarding .spurned x.takeId x.bodyLength x.received := by simp [Cch.abandonFrame, h]

theorem Cch.abandonFrame_other {x : Cch} (h : x.intake ≠ .taking) : x.abandonFrame = x.intake := by
  unfold Cch.abandonFrame
  split
  · next k => exact absurd k h
  · rfl

/-! ### The end of the order (R26, R33) -/

/-- One answer to each order of a list. -/
theorem answerEach_eq (code : AnswerCode) (l : List (Fin 16)) (s : State) :
    l.foldl (fun s i => s.answer i code) s
      = { s with host := l.foldl (fun h i => h.answered s.exp.base i code []) s.host } := by
  induction l generalizing s with
  | nil => rfl
  | cons i l ih => rw [List.foldl_cons, ih]; rfl

/-- OPENING_WRITES_COMPLETE: the opening ends READY, the order is answered DONE, and then each order that waits
VOLUME_OPEN. -/
theorem execOpeningWritesComplete_of_job {d : Nat} {i : Fin 16} {s : State}
    (hj : s.vau.openJob = some ⟨i, .writes d⟩) :
    let u := ((s.landVau s.host.serial).setUp d).enterRest .ready
    execOpeningWritesComplete s = .next { u with
      vau := { s.vau with vol := .ready, openJob := none, openWaiting := [] }
      host := s.vau.openWaiting.foldl (fun g n => g.answered u.exp.base n .volumeOpen [])
        (u.host.answered u.exp.base i .done [⟨68, 1, s.vau.profile.getD 0⟩, ⟨70, 2, s.vau.cursor⟩]) } := by
  intro u
  have hv : u.vau = { s.vau with vol := .ready } := by
    rw [State.enterRest_vau, State.setUp_eq]; rfl
  have run : execOpeningWritesComplete s
      = .next (u.endOpen i .done [⟨68, 1, u.vau.profile.getD 0⟩, ⟨70, 2, u.vau.cursor⟩]) := by
    simp only [execOpeningWritesComplete, hj]; rfl
  rw [run, State.endOpen, hv]
  rw [State.startOpens_of_open (by rw [State.answer_vau, hv]; exact nofun), answerEach_eq, State.answer_vau, hv]
  rfl

theorem doseSum_mirror (mirror : List LedgerEntry) :
    doseSum (mirror.map (fun e => (e.verso.dose, e.recto.dose))) = mirrorDose mirror := by
  rw [mirrorDose_eq, doseSum, List.map_map]; rfl

/-- No automatic retake is counted where every count is 0 (R57). -/
theorem Occ.autoCount_zero {o : Occ} {α : Type} {l : List α} (h : o.auto = l.map (fun _ => (0, 0))) (e : Nat)
    (side : Side) : o.autoCount e side = 0 := by
  have hz : o.auto.getD e (0, 0) = (0, 0) := by
    rw [h, List.getD_eq_getElem?_getD, List.getElem?_map]
    cases l[e]? <;> rfl
  cases side <;> simp only [Occ.autoCount, hz]

/-- Settles O25, item by item, from the state that the end of the ledger work leads to. -/
theorem openingEndsReady : Obligations.OpeningEndsReady := by
  intro d i s hj
  have run : exec .openingWritesComplete s = _ := execOpeningWritesComplete_of_job hj
  have set := State.setUp_eq (s.landVau s.host.serial) d
  obtain ⟨bf, bn⟩ := State.banksSet_congr (s := s) (t := s.landVau s.host.serial) rfl rfl rfl
  rw [bf, bn] at set
  generalize (s.landVau s.host.serial).setUp d = u at run set
  have ufbk : u.fbk = s.banksSet.fbk := by rw [set]
  have unote : u.exp.note = s.banksSet.exp.note := by rw [set]
  obtain ⟨hf, hn⟩ := State.enterRest_banks s.banksSet u .ready ufbk unote
  have hdesc := State.enterRest_desc u .ready
  have hidle := fun c => State.enterRest_idle (s := u) (c := c) .ready
  have rest := State.enterRest_eq u .ready
  generalize u.enterRest .ready = r at run rest hf hn hdesc hidle
  have hexp : r.exp = { s.exp with note := r.exp.note } := (congrArg State.exp rest).trans (by rw [set]; rfl)
  have hocc : r.occ = { Occ.reset with
      auto := s.vau.mirror.map (fun _ => (0, 0)), inbox := s.occ.inbox, releasing := s.occ.releasing } :=
    (congrArg State.occ rest).trans (by rw [set]; rfl)
  have hldu : r.ldu = { s.ldu with
      sideDose := s.vau.mirror.map (fun e => (e.verso.dose, e.recto.dose)), volDose := max d (mirrorDose s.vau.mirror) }
      := (congrArg State.ldu rest).trans (by rw [set, ← doseSum_mirror]; rfl)
  have hcch : r.cch = ⟨s.cch.left.resync, s.cch.right.resync⟩ := (congrArg State.cch rest).trans (by rw [set]; rfl)
  have hhost : r.host = (((s.landVau s.host.serial).landBody .left).landBody .right).host :=
    (congrArg State.host rest).trans (by rw [set])
  refine ⟨_, run, rfl, ?_, ?_, ?_, ?_, fun e side => Occ.autoCount_zero (l := s.vau.mirror) ?_ e side, ?_, ?_,
    ⟨hf, hn⟩, (congrArg State.pfs rest).trans (by rw [set]; rfl), (congrArg State.tsq rest).trans (by rw [set]; rfl),
    (congrArg State.sideband rest).trans (by rw [set]; rfl), (congrArg State.free rest).trans (by rw [set]; rfl),
    hexp, _, _, _, State.land_completed s _, State.land_completed (s.landVau s.host.serial) _,
    State.land_completed ((s.landVau s.host.serial).landBody .left) _, ?_⟩
  · show r.ldu = { s.ldu with sideDose := r.ldu.sideDose, volDose := r.ldu.volDose }
    rw [hldu]
  · show r.ldu.sideDose = _
    rw [hldu]
  · show r.ldu.volDose = _
    rw [hldu]
  · show r.occ = { Occ.reset with auto := r.occ.auto, inbox := s.occ.inbox, releasing := s.occ.releasing }
    rw [hocc]
  · show r.occ.auto = _
    rw [hocc]
  · intro c x y
    have hy : y = x.resync := by
      show r.cch.get c = _
      rw [hcch]
      cases c <;> rfl
    refine ⟨by rw [hy, Cch.resync_eq], fun k => by rw [hy, Cch.resync_eq, Cch.abandonFrame_taking k],
      fun k => by rw [hy, Cch.resync_eq, Cch.abandonFrame_other k], fun a ha k => ?_⟩
    show ((r.fbk.get c).bank _).desc _ = _
    rw [hdesc, ufbk]
    exact State.banksSet_free ha k
  · intro c h
    have act : (u.fbk.get c).active = .bankA := by rw [ufbk]; exact State.banksSet_active s c
    show (r.fbk.get c).active = _
    rw [hidle c (by rw [act, ufbk]; exact State.banksSet_filled h), act]
  · show s.vau.openWaiting.foldl (fun g n => g.answered r.exp.base n .volumeOpen []) (r.host.answered r.exp.base ..) = _
    rw [hhost, show r.exp.base = s.exp.base by rw [hexp]]
    rfl

end Sys2Proof.Machine
end

section
/-! SUPPORT. AMEND (R34, R35): the refusals in their order, and the change of one entry ahead of the cursor. -/

namespace Sys2Proof.Machine

/-! ### The kinds an AMEND may give (R34) -/

theorem Kind.ofCode_code (k : Kind) : Kind.ofCode k.code = some k := by cases k <;> rfl

theorem Kind.code_inj {k l : Kind} : k.code = l.code ↔ k = l :=
  ⟨fun h => Option.some.inj (by rw [← Kind.ofCode_code, h, Kind.ofCode_code]), congrArg Kind.code⟩

theorem Kind.amendable_iff (k : Kind) : k.amendable = true ↔ k.code = 2 ∨ k.code = 3 ∨ k.code = 4 ∨ k.code = 6 := by
  cases k <;> decide

theorem Kind.code_of_ofCode {c : Nat} {k : Kind} (h : Kind.ofCode c = some k) : k.code = c := by
  unfold Kind.ofCode at h
  split at h <;> cases h <;> rfl

/-- TEXT, PLATE, TISSUE and LACUNA are the kinds an AMEND may name. -/
theorem Kind.amendable_ofCode {c : Nat} (h : c = 2 ∨ c = 3 ∨ c = 4 ∨ c = 6) :
    ∃ k : Kind, k.code = c ∧ (Kind.ofCode c).filter Kind.amendable = some k := by
  obtain rfl | rfl | rfl | rfl := h
  exacts [⟨.text, rfl, rfl⟩, ⟨.plate, rfl, rfl⟩, ⟨.tissue, rfl, rfl⟩, ⟨.lacuna, rfl, rfl⟩]

theorem Kind.not_amendable_ofCode {c : Nat} (h : ¬(c = 2 ∨ c = 3 ∨ c = 4 ∨ c = 6)) :
    (Kind.ofCode c).filter Kind.amendable = none := by
  cases hk : Kind.ofCode c with
  | none => rfl
  | some k =>
    have no : ¬k.amendable = true := by rwa [Kind.amendable_iff, Kind.code_of_ofCode hk]
    rw [Option.filter_some, if_neg no]

/-- The sides of an entry amended to such a kind start PENDING for TEXT and PLATE, and EXEMPT otherwise (R35). -/
theorem SideRec.amend_eq (r : SideRec) {k : Kind} (side : Side) (h : k.amendable = true) :
    r.amend k side
      = ⟨if k.code = 2 ∨ k.code = 3 then .pending else .exempt, r.takes, r.dose, [⟨0, 0⟩]⟩ := by
  cases k with
  | board | foldout => cases h
  | text | plate | tissue | lacuna => cases side <;> rfl

/-! ### The answers of AMEND (R34, R52) -/

/-- The states of the volume in which an AMEND is examined (R34, R52). -/
def VolState.TakesAmend (v : VolState) : Prop := v = .ready ∨ v = .cycling ∨ v = .handWait

/-- The last checks of R34, on an entry between the boards and a kind that an AMEND may name. -/
def State.amendAhead (s : State) (i : Fin 16) (e : Nat) (k : Kind) : State :=
  if e ≤ s.vau.rightEntry then s.answer i .tooLate [⟨70, 2, s.vau.rightEntry⟩]
  else if (planAt s.vau.plan e).kind = k then s.answer i .done
  else
    let t := s.changeAccount (fun v => v.amend e k) true
    t.setVau { t.vau with amendJobs := t.vau.amendJobs ++ [⟨i, t.host.serial⟩] }

/-- AMEND in a state that takes it: the kind and the entry are checked first (R34). -/
theorem State.amend_of_open {s : State} (h : s.vau.vol.TakesAmend) (i : Fin 16) (e c : Nat) :
    s.amend i e c = ((Kind.ofCode c).filter Kind.amendable).elim (s.answer i .badPlan [⟨70, 2, e⟩]) (fun k =>
      if s.vau.plan.length ≤ e ∨ e = 0 ∨ e + 1 = s.vau.plan.length then s.answer i .badPlan [⟨70, 2, e⟩]
      else s.amendAhead i e k) := by
  unfold State.amend
  dsimp only
  cases (Kind.ofCode c).filter Kind.amendable <;> obtain h | h | h := h <;> rw [h] <;> rfl

theorem State.amend_of_badPlan {s : State} (h : s.vau.vol.TakesAmend) (i : Fin 16) {e c : Nat}
    (he : s.vau.plan.length ≤ e ∨ e = 0 ∨ e + 1 = s.vau.plan.length ∨ ¬(c = 2 ∨ c = 3 ∨ c = 4 ∨ c = 6)) :
    s.amend i e c = s.answer i .badPlan [⟨70, 2, e⟩] := by
  rw [State.amend_of_open h]
  by_cases hc : c = 2 ∨ c = 3 ∨ c = 4 ∨ c = 6
  · obtain ⟨k, -, hk⟩ := Kind.amendable_ofCode hc
    rw [hk]
    exact if_pos (by omega)
  · rw [Kind.not_amendable_ofCode hc]; rfl

/-- An AMEND of an entry between the boards to a kind it may name. -/
theorem State.amend_of_entry {s : State} (h : s.vau.vol.TakesAmend) (i : Fin 16) {e c : Nat} {k : Kind}
    (hk : (Kind.ofCode c).filter Kind.amendable = some k) (h0 : e ≠ 0) (hn : e + 1 < s.vau.plan.length) :
    s.amend i e c = s.amendAhead i e k := by
  rw [State.amend_of_open h, hk]
  exact if_neg (by omega)

/-- An accepted AMEND changes the account and issues its writes, the header among them, and VAU waits for them
(R35, R36). -/
theorem State.amendAhead_accepted {s : State} (i : Fin 16) {e : Nat} {k : Kind} (ahead : s.vau.rightEntry < e)
    (changed : (planAt s.vau.plan e).kind ≠ k) :
    let host := s.host.issued .vau (ledgerWrites s.exp.base s.vau (s.vau.amend e k) true)
    s.amendAhead i e k = { s with
      vau := { s.vau.amend e k with amendJobs := s.vau.amendJobs ++ [⟨i, host.serial⟩] }, host := host } := by
  intro host
  have ht : s.changeAccount (fun v => v.amend e k) true = { s with vau := s.vau.amend e k, host := host } :=
    State.changeAccount_writes s (fun v => v.amend e k) true (by simp [Vau.amend, Vau.mapEntry])
  unfold State.amendAhead
  rw [if_neg (by omega), if_neg changed, ht]
  rfl

/-- AMEND: VAU takes the order from its queue (R34). -/
theorem execAmend_of_order {s t : State} {i : Fin 16} {e c : Nat}
    (h : s.nextOrder .vau = some (⟨i, .amend e c⟩, t)) : exec .amend s = .next (t.amend i e c) := by
  show execAmend s = _
  simp only [execAmend, h]

/-- The writes of an AMEND complete, and it is answered DONE (R35, R36). -/
theorem execAmendWritesComplete_of_job {s : State} {j : VauJob} {rest : List VauJob}
    (h : s.vau.amendJobs = j :: rest) : exec .amendWritesComplete s = .next { s with
      host := (s.landVau j.ticket).host.answered s.exp.base j.slot .done []
      vau := { s.vau with amendJobs := rest } } := by
  show execAmendWritesComplete s = _
  simp only [execAmendWritesComplete, h]
  rfl

/-- Settles O26: each refusal in its order, and the accepted change by what `Vau.amend` makes of one entry. -/
theorem amendChangesOneEntryAhead : Obligations.AmendChangesOneEntryAhead := by
  refine ⟨fun s s' i e c hq => ?_, fun s j rest h =>
    ⟨_, State.land_completed s _, execAmendWritesComplete_of_job h⟩⟩
  rw [execAmend_of_order hq]
  have queue := State.nextOrder_eq hq
  have hv : s'.vau = s.vau := by rw [queue]
  have hbase : s'.exp.base = s.exp.base := by rw [queue]
  have hhost : s'.host = s.host := by rw [queue]
  refine ⟨fun h => ?_, fun h => ?_, fun h => ?_⟩
  · simp only [State.amend, hv, h]
  · obtain h | h := h <;> simp only [State.amend, hv, h]
  have h' : s'.vau.vol.TakesAmend := by rw [hv]; exact h
  refine ⟨fun he => by rw [State.amend_of_badPlan h' i (by rwa [hv])], fun h0 hn hc => ?_⟩
  obtain ⟨k, hk, ofCode⟩ := Kind.amendable_ofCode hc
  rw [State.amend_of_entry h' i ofCode h0 (by rwa [hv])]
  refine ⟨fun late => ?_, fun ahead same => ?_, fun ahead differs => ?_⟩
  · rw [State.amendAhead, hv, if_pos late]
  · rw [State.amendAhead, hv, if_neg (by omega), if_pos (Kind.code_inj.1 (same.trans hk.symm))]
  have changed : (planAt s.vau.plan e).kind ≠ k := fun h => differs (by rw [h, hk])
  rw [State.amendAhead_accepted i (by rwa [hv]) (by rwa [hv]), hv, hbase, hhost]
  have hamend : k.amendable = true := by rwa [Kind.amendable_iff, hk]
  refine ⟨_, rfl, rfl, rfl, rfl, rfl, fun j hj => ?_, fun p hp => ?_, fun x hx => ?_⟩
  · simp [Vau.amend, Vau.mapEntry, List.getElem?_modify_ne _ _ hj.symm]
  · exact ⟨{ p with kind := k, panels := 1 }, by simp [Vau.amend, hp], hk, rfl, rfl⟩
  · refine ⟨_, by simp only [Vau.amend, Vau.mapEntry, List.getElem?_modify_eq, hx]; rfl,
      hk, rfl, rfl, ?_, ?_⟩
    · rw [← hk]; exact SideRec.amend_eq _ _ hamend
    · rw [← hk]; exact SideRec.amend_eq _ _ hamend

end Sys2Proof.Machine
end

section
/-! SUPPORT. The laws of the account, of the volume state and of the doses over every command (R18, R28, R31, R40, R41,
R47, R50, R57, R58, R99, R114): the resets, VAU's orders and the charge, and then the step. -/

namespace Sys2Proof.Machine

variable {s t : State}

/-! ### The resets (R162, R163) -/

/-- The laws at a state whose volume, cycle and doses are those of a reset. -/
theorem State.Lawful.of_reset (hv : t.vau = Vau.reset) (ho : t.occ = Occ.reset) (hl : t.ldu = Ldu.reset) :
    State.Lawful s t where
  account := .of_mirror (by rw [hv]; exact fun _ h => absurd h List.not_mem_nil) (by rw [hv]; exact Vau.reset_numberLaw)
  volume _ :=
    have h := State.reset_volumeCoherent
    ⟨by rw [ho, hv]; exact h.order, by rw [ho]; exact h.work, by rw [hv]; exact h.step, by rw [hv]; exact h.close,
      by rw [hv]; exact h.openFirst, by rw [hv]; exact h.openSecond⟩
  doseLaw _ := by rw [hl]; exact Nat.le_refl 0
  doses _ _ _ ht := absurd (by rw [hv]; rfl) ht

theorem execPowerOnReset_lawful {p u d : Bool} (h : execPowerOnReset p u d s = .next t) : State.Lawful s t := by
  rw [← next_inj h]
  exact .of_reset rfl rfl rfl

theorem State.controllerReset_lawful (s : State) : State.Lawful s s.controllerReset := .of_reset rfl rfl rfl

theorem execControlReset_lawful {e : Bool} (h : execControlReset e s = .next t) : State.Lawful s t := by
  rw [← next_inj h]
  exact s.controllerReset_lawful

theorem execControlEnable_lawful {v : Word32} (h : execControlEnable v s = .next t) : State.Lawful s t := by
  rw [← next_inj h]
  split
  · exact s.controllerReset_lawful
  · refine State.Steady.lawful (State.steady_of_view ?_)
    rfl

/-- The orders that wait, and those whose writes are in flight, are no part of these laws. -/
theorem State.Steady.of_jobs (hv : t.vau = { s.vau with
    openWaiting := t.vau.openWaiting, amendJobs := t.vau.amendJobs, handJobs := t.vau.handJobs })
    (ho : t.occ = s.occ) (hl : t.ldu = s.ldu) : State.Steady s t :=
  State.SameVolume.steady ⟨by rw [ho], by rw [hv], by rw [hv], by rw [hv], by rw [hv], .of_eq (by rw [hv]) (by rw [hv]),
    by rw [hl], by rw [hl]⟩ (by rw [ho])

/-! ### The opening of a volume (R26 to R33) -/

/-- VAU starts the orders that wait: where a volume is open, none was being carried out. -/
theorem State.startOpens_steady (s : State) (l : List (Fin 16))
    (hj : s.VolumeCoherent → s.vau.vol ≠ .noVolume → s.vau.openJob = none) : State.Steady s (s.startOpens l) := by
  by_cases hv : s.vau.vol = .noVolume
  · rw [State.startOpens_of_noVolume hv]
    refine ⟨.of_eq rfl rfl, fun hs => ⟨hs.order, hs.work, hs.step, hs.close, fun _ _ _ => hv, ?_⟩, rfl, rfl⟩
    constructor
    · rintro ⟨j, hj, hf⟩
      cases l with
      | nil => cases hj
      | cons i l => cases hj; cases hf
    · exact fun k => absurd (hv.symm.trans k) nofun
  · rw [State.startOpens_of_open hv, answerEach_eq]
    refine ⟨.of_eq rfl rfl, fun hs => ⟨hs.order, hs.work, hs.step, hs.close, nofun, ?_⟩, rfl, rfl⟩
    have none := hs.openSecond
    rw [hj hs hv] at none
    exact none

theorem State.endOpen_steady (s : State) (i : Fin 16) (code : AnswerCode) (fields : List FieldVal)
    (hj : s.VolumeCoherent → s.vau.vol ≠ .noVolume → s.vau.openJob = none) :
    State.Steady s (s.endOpen i code fields) :=
  have answered : State.Steady s (s.answer i code fields) := State.steady_of_view (by simp)
  answered.trans (State.startOpens_steady _ _ fun hs => hj ⟨hs.order, hs.work, hs.step, hs.close, hs.openFirst,
    hs.openSecond⟩)

/-- The first part of an opening runs with no volume open (R26). -/
theorem State.VolumeCoherent.open_first {s : State} {j : OpenJob} (hj : s.vau.openJob = some j)
    (hf : j.phase.first = true) (h : s.VolumeCoherent) (hv : s.vau.vol ≠ .noVolume) : s.vau.openJob = none :=
  absurd (h.openFirst j hj hf) hv

theorem execOpenVolume_steady (h : execOpenVolume s = .next t) : State.Steady s t := by
  rw [← next_inj h]
  split
  · next i s' hq =>
    have queue : State.Steady s s' := State.steady_of_view (State.nextOrder_volumeView hq)
    split
    · exact queue.trans (.of_jobs rfl rfl rfl)
    · next hj => exact queue.trans (State.startOpens_steady _ _ fun _ _ => hj)
  · exact .refl s

theorem execSheetHeaderRead_steady {b : List Byte} (h : execSheetHeaderRead b s = .next t) : State.Steady s t := by
  rw [← next_inj h]
  split
  · next i hj =>
    dsimp only
    split
    · refine ⟨.of_eq rfl rfl, fun hs => ⟨hs.order, hs.work, hs.step, hs.close, ?_, ?_⟩, rfl, rfl⟩
      · rintro j hp -
        exact hs.openFirst _ hj rfl
      · have hn : s.vau.vol = .noVolume := hs.openFirst _ hj rfl
        constructor
        · rintro ⟨j, hp, hf⟩; cases hp; cases hf
        · exact fun k => absurd (hn.symm.trans k) nofun
    · exact State.endOpen_steady s _ _ _ (State.VolumeCoherent.open_first hj rfl)
  · exact .refl s

/-- The volume brought to OPENING, with the second part of its opening (R28). -/
theorem State.Lawful.of_opening {i : Fin 16} {p : OpenPhase} {j : OpenJob} (hj : s.vau.openJob = some j)
    (hf : j.phase.first = true) (account : Vau.LawsKept s.vau t.vau) (ho : t.occ = s.occ) (hl : t.ldu = s.ldu)
    (hv : t.vau.vol = .opening) (hs : t.vau.step = s.vau.step) (hc : t.vau.closeJob = s.vau.closeJob)
    (hp : t.vau.openJob = some ⟨i, p⟩) (second : p.first = false) : State.Lawful s t where
  account := account
  volume h := by
    have hn : s.vau.vol = .noVolume := h.openFirst j hj hf
    obtain ⟨order, work⟩ := h.order_none (by simp [hn])
    have step := h.step_none (by simp [hn])
    have close := h.close_none (by simp [hn])
    exact {
      order := by simp [ho, order, hv]
      work := fun k => absurd (ho ▸ work) k
      step := by simp [hs, step, hv]
      close := by simp [hc, close, hv]
      openFirst := by simp [hp, second]
      openSecond := by simp [hp, second, hv] }
  doseLaw k := hl ▸ k
  doses h hn _ _ := absurd (h.openFirst j hj hf) hn

theorem execPlanRead_lawful {b r : List Byte} (h : execPlanRead b r s = .next t) : State.Lawful s t := by
  rw [← next_inj h]
  split
  · next i g hj =>
    have ended (code : AnswerCode) (fields : List FieldVal) : State.Lawful s (s.endOpen i code fields) :=
      (State.endOpen_steady s i code fields (State.VolumeCoherent.open_first hj rfl)).lawful
    split
    · exact ended _ _
    split
    · exact ended _ _
    · next plan _ =>
      split
      · exact ended _ _
      split
      · exact ended _ _
      dsimp only
      split
      · rw [State.freshLedger_eq]
        obtain ⟨capture, number⟩ := freshMirror_laws (v := { s.vau with
          mirror := freshMirror plan, nextFrame := 1 }) rfl rfl
        refine .of_opening hj rfl ⟨fun _ => capture, fun _ => ?_⟩ rfl rfl rfl rfl rfl rfl rfl
        exact ⟨number.width, number.below⟩
      · rw [State.resumeLedger_eq]
        exact .of_opening hj rfl (.of_eq rfl rfl) rfl rfl rfl rfl rfl rfl rfl
  · exact (State.Steady.refl s).lawful

theorem parseLedgerHeader_nextFrame_lt (b : List Byte) : (parseLedgerHeader b).nextFrame < 2 ^ 32 :=
  leNat_lt b 12 4

theorem execLedgerReadComplete_steady {b l : List Byte} (h : execLedgerReadComplete b l s = .next t) :
    State.Steady s t := by
  rw [← next_inj h]
  split
  · next i hj =>
    rw [State.resume_eq]
    obtain ⟨capture, number⟩ := resumed_laws (v := { s.vau with
        mirror := skipMark s.vau.plan 0 (if inOpeningRange s.vau.plan (parseLedgerHeader b).cursor then
          (parseLedgerHeader b).cursor else 0) (readMirror s.vau.plan l)
        nextFrame := resumedNumber (parseLedgerHeader b).nextFrame (readMirror s.vau.plan l) })
      (parseLedgerHeader_nextFrame_lt b) rfl rfl
    refine ⟨⟨fun _ => capture, fun _ => ⟨number.width, number.below⟩⟩, fun hs => ⟨hs.order, hs.work, hs.step, hs.close,
      ?_, ?_⟩, rfl, rfl⟩
    · rintro j hp hf; cases hp; cases hf
    · exact ⟨fun _ => hs.opening hj rfl, fun _ => ⟨_, rfl, rfl⟩⟩
  · exact .refl s

/-- The opening ends READY, with the doses of the mirror and a volume dose that covers them (R32). -/
theorem execOpeningWritesComplete_lawful (h : execOpeningWritesComplete s = .next t) : State.Lawful s t := by
  by_cases k : ∃ i d, s.vau.openJob = some ⟨i, .writes d⟩
  · obtain ⟨i, d, hj⟩ := k
    rw [execOpeningWritesComplete_of_job hj, State.enterRest_eq, State.setUp_eq] at h
    rw [← next_inj h]
    exact {
      account := .of_eq rfl rfl
      volume := fun hs =>
        have hv : s.vau.vol = .opening := hs.opening hj rfl
        .of_ready rfl rfl rfl (hs.step_none (by simp [hv])) (hs.close_none (by simp [hv])) rfl
      doseLaw := fun _ => le_max_right _ _
      doses := fun hs _ ho _ => absurd (hs.opening hj rfl) ho }
  · rw [← next_inj h]
    split
    · next i d hj => exact absurd ⟨i, d, hj⟩ k
    · exact (State.Steady.refl s).lawful

/-! ### VAU's orders taken, and answers -/

/-- A change that shows no part of the volume, and then one that keeps the laws. -/
theorem State.Lawful.of_view {s u : State} (hv : u.volumeView = s.volumeView) (h : State.Lawful u t) :
    State.Lawful s t := by
  obtain ⟨same, hw⟩ := State.sameVolume_of_view hv
  have doses := Ldu.doses_le same.sideDose same.volDose
  refine ⟨same.account.trans h.account, fun hs => h.volume (same.coherent (.inl hw) hs),
    fun k => h.doseLaw (k.of_eq same.sideDose same.volDose), fun hs hn ho ht => ?_⟩
  obtain ⟨hd, hside⟩ := h.doses (same.coherent (.inl hw) hs) (same.vol ▸ hn) (same.vol ▸ ho) ht
  exact ⟨doses.1.trans hd, fun e side => (doses.2 e side).trans (hside e side)⟩

/-! ### AMEND, HAND DONE and CLOSE VOLUME (R34 to R36, R48 to R55) -/

/-- What VAU does with an order of its queue, and nothing where none waits. -/
theorem State.vauOrder_steady {s s' t : State} {d : Dispatched} (hq : s.nextOrder .vau = some (d, s'))
    (h : State.Steady s' t) : State.Steady s t := (State.steady_of_view (State.nextOrder_volumeView hq)).trans h

theorem State.answer_steady (s : State) (i : Fin 16) (code : AnswerCode) (fields : List FieldVal) :
    State.Steady s (s.answer i code fields) := State.steady_of_view (State.answer_volumeView ..)

theorem State.amendAhead_steady (s : State) (i : Fin 16) (e : Nat) (k : Kind) :
    State.Steady s (s.amendAhead i e k) := by
  unfold State.amendAhead
  split
  · exact s.answer_steady ..
  split
  · exact s.answer_steady ..
  · have changed := State.changeAccount_sameVolume s (fun v => v.amend e k) true (Vau.amend_laws ..)
    refine (changed.steady (State.changeAccount_work ..)).trans ?_
    exact .of_jobs rfl rfl rfl

theorem State.amend_steady (s : State) (i : Fin 16) (e c : Nat) : State.Steady s (s.amend i e c) := by
  by_cases h : s.vau.vol.TakesAmend
  · rw [State.amend_of_open h]
    cases (Kind.ofCode c).filter Kind.amendable with
    | none => exact s.answer_steady ..
    | some k =>
      dsimp only [Option.elim_some]
      split
      · exact s.answer_steady ..
      · exact s.amendAhead_steady ..
  · unfold State.amend
    dsimp only
    cases hv : s.vau.vol with
    | noVolume | opening | closing => exact s.answer_steady ..
    | ready => exact absurd (.inl hv) h
    | cycling => exact absurd (.inr (.inl hv)) h
    | handWait => exact absurd (.inr (.inr hv)) h

theorem execAmend_steady (h : execAmend s = .next t) : State.Steady s t := by
  rw [← next_inj h]
  split
  · next hq => exact State.vauOrder_steady hq (State.amend_steady ..)
  · exact .refl s

theorem execAmendWritesComplete_steady (h : execAmendWritesComplete s = .next t) : State.Steady s t := by
  rw [← next_inj h]
  split
  · exact .of_jobs rfl rfl rfl
  · exact .refl s

theorem Vau.handStepDone_jobs (v : Vau) (step : HandStep) (c : Nat) :
    (v.handStepDone step c).closeJob = v.closeJob ∧ (v.handStepDone step c).openJob = v.openJob := by
  unfold Vau.handStepDone
  cases step.reason <;> exact ⟨rfl, rfl⟩

/-- The hand step done, the volume is READY (R48, R49). -/
theorem State.acceptHandDone_steady (s : State) (i : Fin 16) (step : HandStep) (c : Nat)
    (hv : s.vau.vol = .handWait) : State.Steady s (s.acceptHandDone i step c) := by
  unfold State.acceptHandDone
  rw [State.enterRest_eq, (State.changeAccount_eq s _ true).1]
  refine ⟨(Vau.handStepDone_laws s.vau step c).trans (.of_eq rfl rfl), fun hs => ?_, rfl, rfl⟩
  obtain ⟨order, work⟩ := hs.order_none (by simp [hv])
  obtain ⟨close, opens⟩ := Vau.handStepDone_jobs s.vau step c
  exact .of_ready rfl order work rfl (close.trans (hs.close_none (by simp [hv])))
    (opens.trans (hs.open_none (by simp [hv]) (by simp [hv])))

theorem State.handDone_steady (s : State) (i : Fin 16) (r c : Nat) : State.Steady s (s.handDone i r c) := by
  unfold State.handDone
  split
  · exact s.answer_steady ..
  · exact s.answer_steady ..
  · next step hv _ =>
    split
    · exact s.answer_steady ..
    split
    · exact s.answer_steady ..
    · exact s.acceptHandDone_steady i step c hv
  · exact s.answer_steady ..

theorem execHandDone_steady (h : execHandDone s = .next t) : State.Steady s t := by
  rw [← next_inj h]
  split
  · next hq => exact State.vauOrder_steady hq (State.handDone_steady ..)
  · exact .refl s

theorem execHandDoneWritesComplete_steady (h : execHandDoneWritesComplete s = .next t) : State.Steady s t := by
  rw [← next_inj h]
  split
  · exact .of_jobs rfl rfl rfl
  · exact .refl s

/-- The close of a volume at rest: CLOSING, with the hand step dropped (R50, R51). -/
theorem State.Steady.of_closing {j : CloseJob} (hv : s.vau.vol = .ready ∨ s.vau.vol = .handWait)
    (ht : t.vau = { s.vau with vol := .closing, step := none, closeJob := some j }) (ho : t.occ = s.occ)
    (hl : t.ldu = s.ldu) : State.Steady s t := by
  refine ⟨.of_eq (by rw [ht]) (by rw [ht]), fun hs => ?_, by rw [hl], by rw [hl]⟩
  have hc : s.vau.vol ≠ .cycling ∧ s.vau.vol ≠ .noVolume ∧ s.vau.vol ≠ .opening := by
    obtain hv | hv := hv <;> simp [hv]
  obtain ⟨busy, open', opening⟩ := hc
  obtain ⟨order, work⟩ := hs.order_none busy
  have none := hs.open_none open' opening
  exact {
    order := by simp [ho, order, ht]
    work := fun k => absurd (ho ▸ work) k
    step := by simp [ht]
    close := by simp [ht]
    openFirst := by simp [ht, none]
    openSecond := by simp [ht, none] }

theorem State.closeVolume_steady (s : State) (i : Fin 16) (force : Bool) : State.Steady s (s.closeVolume i force) := by
  have close (hv : s.vau.vol = .ready ∨ s.vau.vol = .handWait) : State.Steady s
      (if s.closeBusy then s.answer i .busy
      else if s.vau.incomplete ≠ 0 ∧ force = false then s.answer i .incomplete [⟨72, 2, s.vau.incomplete⟩]
      else
        let complete := s.vau.incomplete == 0
        let s := (s.setVau { s.vau with vol := .closing, step := none }).writeCloseValid 0
        s.setVau { s.vau with closeJob := some ⟨i, 1, complete, s.host.serial⟩ }) := by
    split
    · exact s.answer_steady ..
    split
    · exact s.answer_steady ..
    · exact .of_closing hv rfl rfl rfl
  unfold State.closeVolume
  dsimp only
  cases hv : s.vau.vol with
  | noVolume | opening | cycling | closing => exact s.answer_steady ..
  | ready => exact close (.inl hv)
  | handWait => exact close (.inr hv)

theorem execCloseVolume_steady (h : execCloseVolume s = .next t) : State.Steady s t := by
  rw [← next_inj h]
  split
  · next hq => exact State.vauOrder_steady hq (State.closeVolume_steady ..)
  · exact .refl s

/-- Writes issued and the next step of the close: the volume stays CLOSING (R51). -/
theorem State.closingStep_steady {s u : State} {j : CloseJob} (hj : s.vau.closeJob = some j)
    (hu : u.volumeView = s.volumeView) (k : Nat) : State.Steady s (u.closingStep j k) := by
  refine (State.steady_of_view hu).trans ⟨.of_eq rfl rfl, fun hs => ⟨hs.order, hs.work, hs.step, ?_, hs.openFirst,
    hs.openSecond⟩, rfl, rfl⟩
  have hc : u.vau.closeJob = some j := by rw [(State.sameVolume_of_view hu).1.close, hj]
  have close := hs.close
  rw [hc] at close
  exact close

/-- The end of the close: no volume, and no dose (R51, R53). -/
theorem State.endClosing_lawful {s : State} {j : CloseJob} (hj : s.vau.closeJob = some j) :
    State.Lawful s (s.endClosing j) := by
  unfold State.endClosing
  dsimp only
  rw [State.enterRest_eq]
  refine ⟨.of_mirror (fun _ h => absurd h List.not_mem_nil) ⟨Vau.reset_numberLaw.width, .inl rfl⟩, fun hs => ?_,
    fun _ => Nat.le_refl 0,
    fun _ _ _ ht => absurd rfl ht⟩
  have hv : s.vau.vol = .closing := hs.close.1 (by rw [hj]; rfl)
  have none := hs.open_none (by simp [hv]) (by simp [hv])
  obtain ⟨order, work⟩ := hs.order_none (by simp [hv])
  exact {
    order := by simp [State.answer, State.issue, order]
    work := fun k => absurd work k
    step := ⟨nofun, nofun⟩
    close := ⟨nofun, nofun⟩
    openFirst := fun _ _ _ => rfl
    openSecond := by
      constructor
      · rintro ⟨_, k, -⟩
        exact absurd (none.symm.trans k) nofun
      · nofun }

theorem execClosingWriteComplete_lawful (h : execClosingWriteComplete s = .next t) : State.Lawful s t := by
  rw [← next_inj h]
  split
  · exact (State.Steady.refl s).lawful
  · next j hj =>
    split
    · exact (State.Steady.refl s).lawful
    refine .of_view (u := s.landVau j.ticket) (State.land_volumeView ..) ?_
    have hu : (s.landVau j.ticket).vau.closeJob = some j := hj
    generalize s.landVau j.ticket = u at hu ⊢
    dsimp only
    split
    · exact (State.closingStep_steady hu (State.writeHeader_issued u).volumeView 2).lawful
    · exact (State.closingStep_steady hu (State.writeCloseFields_issued u _).volumeView 3).lawful
    · exact (State.closingStep_steady hu (State.writeCloseValid_issued u 1).volumeView 4).lawful
    · exact State.endClosing_lawful hu

/-! ### The charge (R99, R114) -/

theorem addDose_getD (d : List (Nat × Nat)) (e : Nat) (side : Side) (x j : Nat) :
    (d.getD j (0, 0)).1 ≤ ((addDose d e side x).getD j (0, 0)).1
      ∧ (d.getD j (0, 0)).2 ≤ ((addDose d e side x).getD j (0, 0)).2 := by
  simp only [addDose, List.getD_eq_getElem?_getD, List.getElem?_modify]
  cases d[j]? with
  | none => simp
  | some p => by_cases h : e = j <;> cases side <;> simp [h]

theorem doseSum_addDose (d : List (Nat × Nat)) (e : Nat) (side : Side) (x : Nat) :
    doseSum (addDose d e side x) ≤ doseSum d + x := by
  induction d generalizing e with
  | nil => simp [addDose, doseSum]
  | cons p d ih =>
    cases e with
    | zero => cases side <;> simp [addDose, doseSum] <;> omega
    | succ e =>
      have k := ih e
      simp only [addDose, doseSum, List.modify_succ_cons, List.map_cons, List.sum_cons] at k ⊢
      omega

/-- A charge adds to the dose of both pages, and to the volume dose what the pages take together (R99). -/
theorem State.charge_ldu (s : State) (sides : ChanSet) (cls : ExpClass) (d : DoseCase) :
    let dl := pageCharge d.luxLeft d.time
    let dr := pageCharge d.luxRight d.time
    (s.charge sides cls d).ldu.sideDose
        = addDose (addDose s.ldu.sideDose (s.vau.pageEntry .left) .verso dl) (s.vau.pageEntry .right) .recto dr
      ∧ (s.charge sides cls d).ldu.volDose = s.ldu.volDose + (dl + dr) := ⟨rfl, rfl⟩

/-- Two pages charged: the sum stays covered, and no dose is reduced. -/
theorem Ldu.doses_charged {l m : Ldu} {e r dl dr : Nat}
    (hs : m.sideDose = addDose (addDose l.sideDose e .verso dl) r .recto dr) (hd : m.volDose = l.volDose + (dl + dr)) :
    (l.DoseLaw → m.DoseLaw) ∧ l.volDose ≤ m.volDose ∧ ∀ j side, l.dose j side ≤ m.dose j side := by
  refine ⟨fun h => ?_, by omega, fun j side => ?_⟩
  · have left := doseSum_addDose l.sideDose e .verso dl
    have right := doseSum_addDose (addDose l.sideDose e .verso dl) r .recto dr
    unfold Ldu.DoseLaw at h ⊢
    rw [hs, hd]
    omega
  · have left := addDose_getD l.sideDose e .verso dl j
    have right := addDose_getD (addDose l.sideDose e .verso dl) r .recto dr j
    cases side <;> simp only [Ldu.dose, hs]
    · exact left.1.trans right.1
    · exact left.2.trans right.2

theorem State.charge_lawful (s : State) (sides : ChanSet) (cls : ExpClass) (d : DoseCase) :
    State.Lawful s (s.charge sides cls d) := by
  obtain ⟨hs, hd⟩ := s.charge_ldu sides cls d
  obtain ⟨law, doses⟩ := Ldu.doses_charged hs hd
  exact ⟨.of_eq rfl rfl, fun h => ⟨h.order, h.work, h.step, h.close, h.openFirst, h.openSecond⟩, law,
    fun _ _ _ _ => doses⟩

theorem execAdmissionRequest_lawful (h : execAdmissionRequest s = .next t) : State.Lawful s t := by
  rw [← next_inj h]
  split
  · next u hq =>
    refine .of_view (State.nextLdu_volumeView hq) ?_
    unfold State.considerAdmission
    split
    · dsimp only
      split
      · exact State.charge_lawful ..
      · exact (State.steady_of_view (State.toOcc_volumeView ..)).lawful
    · exact (State.steady_of_view (State.toOcc_volumeView ..)).lawful
  · exact (State.Steady.refl s).lawful

/-! ### Every command, and the step -/

theorem exec_lawful {c : Instr} (h : exec c s = .next t) : State.Lawful s t := by
  cases c with
  | powerOnReset => exact execPowerOnReset_lawful h
  | controlReset e => exact execControlReset_lawful (e := e) h
  | controlEnable => exact execControlEnable_lawful h
  | post => exact (State.steady_of_view (execPost_volumeView h)).lawful
  | slotReadComplete => exact (State.steady_of_view (execSlotReadComplete_volumeView h)).lawful
  | answerWriteComplete => exact (State.steady_of_view (execAnswerWriteComplete_volumeView h)).lawful
  | ack => exact (State.steady_of_view (execAck_volumeView h)).lawful
  | noteClear => exact (State.steady_of_view (execNoteClear_volumeView h)).lawful
  | noteMaskWrite => exact (State.steady_of_view (execNoteMaskWrite_volumeView h)).lawful
  | baseWrite => exact (State.steady_of_view (execBaseWrite_volumeView h)).lawful
  | grant => exact (State.steady_of_view (execGrant_volumeView h)).lawful
  | registerWriteIgnored => rw [← next_inj h]; exact (State.Steady.refl s).lawful
  | loadTables => exact (State.steady_of_view (execLoadTables_volumeView h)).lawful
  | tableImagesRead => exact (State.steady_of_view (execTableImagesRead_volumeView h)).lawful
  | sidebandSlotsClear => exact (State.steady_of_view (execSidebandSlotsClear_volumeView h)).lawful
  | openVolume => exact (execOpenVolume_steady h).lawful
  | sheetHeaderRead => exact (execSheetHeaderRead_steady h).lawful
  | planRead => exact execPlanRead_lawful h
  | ledgerReadComplete => exact (execLedgerReadComplete_steady h).lawful
  | openingWritesComplete => exact execOpeningWritesComplete_lawful h
  | amend => exact (execAmend_steady h).lawful
  | amendWritesComplete => exact (execAmendWritesComplete_steady h).lawful
  | handDone => exact (execHandDone_steady h).lawful
  | handDoneWritesComplete => exact (execHandDoneWritesComplete_steady h).lawful
  | closeVolume => exact (execCloseVolume_steady h).lawful
  | closingWriteComplete => exact execClosingWriteComplete_lawful h
  | advance => exact (execAdvance_steady h).lawful
  | capture => exact (execCapture_steady h).lawful
  | turn => exact (execTurn_steady h).lawful
  | retake => exact (execRetake_steady h).lawful
  | stop => exact (execStop_steady h).lawful
  | reservationAnswer => exact (execReservationAnswer_steady h).lawful
  | grantReport => exact (execGrantReport_steady h).lawful
  | roomWatchExpiry => exact (execRoomWatchExpiry_steady h).lawful
  | admissionAnswer => exact (execAdmissionAnswer_steady h).lawful
  | armedAnswer => exact (execArmedAnswer_steady h).lawful
  | fireAnswer => exact (execFireAnswer_steady h).lawful
  | platenCompletion => exact (execPlatenCompletion_steady h).lawful
  | turnCompletion => exact (execTurnCompletion_steady h).lawful
  | lampFaultReport => exact (State.steady_of_view (execLampFaultReport_volumeView h)).lawful
  | cameraFaultReport => exact (execCameraFaultReport_steady h).lawful
  | judgementTaken => exact (execJudgementTaken_steady h).lawful
  | admissionRequest => exact execAdmissionRequest_lawful h
  | chargeWritesComplete => exact (State.steady_of_view (execChargeWritesComplete_volumeView h)).lawful
  | abandonRequest => exact (State.steady_of_view (execAbandonRequest_volumeView h)).lawful
  | fireRequest => exact (State.steady_of_view (execFireRequest_volumeView h)).lawful
  | strobeEnd => exact (State.steady_of_view (execStrobeEnd_volumeView h)).lawful
  | cancelRequest => exact (State.steady_of_view (execCancelRequest_volumeView h)).lawful
  | abortRequest => exact (State.steady_of_view (execAbortRequest_volumeView h)).lawful
  | interlockFall => exact (State.steady_of_view (execInterlockFall_volumeView h)).lawful
  | openStringSense => exact (State.steady_of_view (execOpenStringSense_volumeView h)).lawful
  | turnRequest => exact (State.steady_of_view (execTurnRequest_volumeView h)).lawful
  | platenRequest => exact (State.steady_of_view (execPlatenRequest_volumeView h)).lawful
  | tsqStop => exact (State.steady_of_view (execTsqStop_volumeView h)).lawful
  | upSwitchCloses => exact (State.steady_of_view (execUpSwitchCloses_volumeView h)).lawful
  | upSwitchOpens => exact (State.steady_of_view (execUpSwitchOpens_volumeView h)).lawful
  | downSwitchCloses => exact (State.steady_of_view (execDownSwitchCloses_volumeView h)).lawful
  | downSwitchOpens => exact (State.steady_of_view (execDownSwitchOpens_volumeView h)).lawful
  | pressureReading => exact (State.steady_of_view (execPressureReading_volumeView h)).lawful
  | edgeReached => exact (State.steady_of_view (execEdgeReached_volumeView h)).lawful
  | burstEnd => exact (State.steady_of_view (execBurstEnd_volumeView h)).lawful
  | vacuumSwitchCloses => exact (State.steady_of_view (execVacuumSwitchCloses_volumeView h)).lawful
  | vacuumSwitchOpens => exact (execVacuumSwitchOpens_steady h).lawful
  | readSettled => exact (execReadSettled_steady h).lawful
  | sweepEnd => exact (State.steady_of_view (execSweepEnd_volumeView h)).lawful
  | parkSwitchCloses => exact (State.steady_of_view (execParkSwitchCloses_volumeView h)).lawful
  | parkSwitchOpens => exact (State.steady_of_view (execParkSwitchOpens_volumeView h)).lawful
  | retryWindowExpiry => exact (State.steady_of_view (execRetryWindowExpiry_volumeView h)).lawful
  | stageWatchExpiry => exact (State.steady_of_view (execStageWatchExpiry_volumeView h)).lawful
  | cutDelayExpiry => exact (State.steady_of_view (execCutDelayExpiry_volumeView h)).lawful
  | park => exact (State.steady_of_view (execPark_volumeView h)).lawful
  | armRestore => exact (State.steady_of_view (execArmRestore_volumeView h)).lawful
  | reservationRequest => exact (State.steady_of_view (execReservationRequest_volumeView h)).lawful
  | unusableWriteComplete => exact (State.steady_of_view (execUnusableWriteComplete_volumeView h)).lawful
  | releaseRequest => exact (State.steady_of_view (execReleaseRequest_volumeView h)).lawful
  | descriptorFilled => exact (State.steady_of_view (execDescriptorFilled_volumeView h)).lawful
  | armRequest => exact (State.steady_of_view (execArmRequest_volumeView h)).lawful
  | endOfExposureNotice => exact (State.steady_of_view (execEndOfExposureNotice_volumeView h)).lawful
  | frameHeader => exact (State.steady_of_view (execFrameHeader_volumeView h)).lawful
  | bodyByte => exact (State.steady_of_view (execBodyByte_volumeView h)).lawful
  | frameTrailer => exact (State.steady_of_view (execFrameTrailer_volumeView h)).lawful
  | startMark => exact (State.steady_of_view (execStartMark_volumeView h)).lawful
  | resultWriteComplete => exact (execResultWriteComplete_steady h).lawful
  | frameWatchExpiry => exact (execFrameWatchExpiry_steady h).lawful
  | sideband => exact (State.steady_of_view (execSideband_volumeView h)).lawful
  | sidebandMalformed c ty n =>
    exact (State.steady_of_view (execSidebandMalformed_volumeView (ty := ty) (n := n) h)).lawful
  | strayBytes => rw [← next_inj h]; exact (State.Steady.refl s).lawful
  | readSideband => exact (State.steady_of_view (execReadSideband_volumeView h)).lawful
  | sidebandCopy => exact (State.steady_of_view (execSidebandCopy_volumeView h)).lawful
  | sidebandReportWritten => exact (State.steady_of_view (execSidebandReportWritten_volumeView h)).lawful
  | descriptorReadComplete => exact (State.steady_of_view (execDescriptorReadComplete_volumeView h)).lawful
  | cancelAnswer => exact (execCancelAnswer_steady h).lawful

/-- The step is the command at the front of the queue, with the rest of the queue as it is, or none. -/
theorem step_lawful (h : step s = .next t) : State.Lawful s t := by
  unfold step at h
  split at h
  · rw [← next_inj h]
    exact (State.Steady.refl s).lawful
  · next c rest _ => exact .of_view (u := s.withPending rest) rfl (exec_lawful h)

end Sys2Proof.Machine
end

section
namespace Sys2Proof.Machine

/-- Settles O28, from the account's part of what every step keeps. -/
theorem accountLawsKept : Obligations.AccountLawsKept :=
  ⟨fun _ _ hs h => (step_lawful h).account.capture hs, fun _ _ hs h => (step_lawful h).account.number hs⟩

/-- Settles O41, from the volume state's part of what every step keeps. -/
theorem volumeStateCoherentKept : Obligations.VolumeStateCoherentKept :=
  fun _ _ hs h => (step_lawful h).volume hs

/-- Settles O51: the sum stays covered from every state, and the doses grow where the volume state agrees with the
work in flight. -/
theorem dosesOnlyGrowWhileOpen : Obligations.DosesOnlyGrowWhileOpen :=
  ⟨fun _ _ hs h => (step_lawful h).doseLaw hs, fun _ _ hs h => (step_lawful h).doses hs⟩

end Sys2Proof.Machine
end

section
/-! SUPPORT. The plan checks of R27, and the openings of a plan (R22 to R24). -/

namespace Sys2Proof.Machine

/-! ### One plan entry (R27, Table 11-8) -/

theorem Kind.ofCode_isSome (c : Nat) : (∃ k, Kind.ofCode c = some k) ↔ 1 ≤ c ∧ c ≤ 6 := by
  constructor
  · rintro ⟨k, hk⟩
    rw [← Kind.code_of_ofCode hk]
    cases k <;> decide
  · rintro ⟨hlo, hhi⟩
    have range : c = 1 ∨ c = 2 ∨ c = 3 ∨ c = 4 ∨ c = 5 ∨ c = 6 := by omega
    obtain rfl | rfl | rfl | rfl | rfl | rfl := range <;> exact ⟨_, rfl⟩

/-- The checks of step 3 of R27 on an entry whose kind is one of the six. -/
def EntryPasses (k : Kind) (panels n e : Nat) : Prop :=
  (k = .board ↔ e = 0 ∨ e + 1 = n) ∧ (k = .foldout → 2 ≤ panels ∧ panels ≤ 8) ∧ (k ≠ .foldout → panels = 1)

section Entry
variable {b : List Byte} {n e : Nat} {k : Kind} (hk : Kind.ofCode (byteAt b (16 * e)) = some k)
include hk

theorem parsePlanEntry_of_pass (h : EntryPasses k (byteAt b (16 * e + 1)) n e) :
    parsePlanEntry b n e = some ⟨k, byteAt b (16 * e + 1), leNat b (16 * e + 4) 4⟩ := by
  obtain ⟨board, foldout, other⟩ := h
  have here : ((k == .board) == (e == 0 || e + 1 == n)) = true := by
    rw [beq_iff_eq, Bool.eq_iff_iff]; simpa using board
  have panels : (if k = .foldout then within 2 8 (byteAt b (16 * e + 1)) else byteAt b (16 * e + 1) == 1) = true := by
    split
    · next h => simpa [within] using foldout h
    · next h => simpa using other h
  simp only [parsePlanEntry, hk, here, panels]
  rfl

theorem entryPasses_of_parsed {p : PlanEntry} (h : parsePlanEntry b n e = some p) :
    EntryPasses k (byteAt b (16 * e + 1)) n e ∧ p = ⟨k, byteAt b (16 * e + 1), leNat b (16 * e + 4) 4⟩ := by
  simp only [parsePlanEntry, hk] at h
  obtain ⟨pass, hp⟩ := Option.ite_none_right_eq_some.1 h
  rw [Bool.and_eq_true, beq_iff_eq, Bool.eq_iff_iff] at pass
  obtain ⟨board, panels⟩ := pass
  refine ⟨⟨by simpa using board, fun k => ?_, fun k => ?_⟩, (Option.some.inj hp).symm⟩
  · rw [if_pos k] at panels; simpa [within] using panels
  · rw [if_neg k] at panels; simpa using panels

end Entry

theorem parsePlanEntry_of_noKind {b : List Byte} {n e : Nat} (hk : Kind.ofCode (byteAt b (16 * e)) = none) :
    parsePlanEntry b n e = none := by simp only [parsePlanEntry, hk]

theorem parsePlanEntry_ne_none (b : List Byte) (n e : Nat) : parsePlanEntry b n e ≠ none ↔
    ∃ k, Kind.ofCode (byteAt b (16 * e)) = some k ∧ EntryPasses k (byteAt b (16 * e + 1)) n e := by
  cases hk : Kind.ofCode (byteAt b (16 * e)) with
  | none => simp [parsePlanEntry_of_noKind hk]
  | some k =>
    constructor
    · intro h
      obtain ⟨p, hp⟩ := Option.ne_none_iff_exists'.1 h
      exact ⟨k, rfl, (entryPasses_of_parsed hk hp).1⟩
    · rintro ⟨_, ⟨⟩, pass⟩
      rw [parsePlanEntry_of_pass hk pass]
      exact nofun

/-- The checks of an entry, told by the code of its kind. -/
theorem entryPasses_iff {k : Kind} {c panels n e : Nat} (hc : k.code = c) : EntryPasses k panels n e ↔
    (c = 1 ↔ e = 0 ∨ e + 1 = n) ∧ (c = 5 → 2 ≤ panels ∧ panels ≤ 8) ∧ (c ≠ 5 → panels = 1) := by
  have board : k = .board ↔ c = 1 := by rw [← hc]; exact Kind.code_inj.symm
  have foldout : k = .foldout ↔ c = 5 := by rw [← hc]; exact Kind.code_inj.symm
  rw [EntryPasses, board, foldout, Ne, foldout]

/-! ### The plan, entry by entry -/

/-- One step of the plan checks: the first entry that fails decides. -/
def planStep (b : List Byte) (n e : Nat) : Except Nat (List PlanEntry) → Except Nat (List PlanEntry)
  | .error i => .error (if parsePlanEntry b n e = none then e else i)
  | .ok ps => (parsePlanEntry b n e).elim (.error e) (fun p => .ok (p :: ps))

theorem parsePlan_eq (b : List Byte) (n : Nat) : parsePlan b n = (List.range n).foldr (planStep b n) (.ok []) := by
  unfold parsePlan
  congr 1
  funext e rest
  cases h : parsePlanEntry b n e <;> cases rest <;> simp [planStep, h]

/-- The plan fails with the first entry that does. -/
theorem planSteps_error (b : List Byte) (n e : Nat) (l : List Nat) :
    l.foldr (planStep b n) (.ok []) = .error e ↔ l.find? (fun j => (parsePlanEntry b n j).isNone) = some e := by
  induction l with
  | nil => simp
  | cons x l ih =>
    rw [List.foldr_cons, List.find?_cons]
    cases hx : parsePlanEntry b n x with
    | none => cases l.foldr (planStep b n) (.ok []) <;> simp [planStep, hx]
    | some p =>
      simp only [Option.isNone_some]
      rw [← ih]
      cases l.foldr (planStep b n) (.ok []) <;> simp [planStep, hx]

/-- The plan passes with the entries as read. -/
theorem planSteps_ok (b : List Byte) (n : Nat) (l : List Nat) (plan : List PlanEntry) :
    l.foldr (planStep b n) (.ok []) = .ok plan ↔ l.map (parsePlanEntry b n) = plan.map some := by
  induction l generalizing plan with
  | nil => cases plan <;> simp
  | cons x l ih =>
    rw [List.foldr_cons, List.map_cons]
    cases hr : l.foldr (planStep b n) (.ok []) with
    | error i =>
      simp only [hr, reduceCtorEq, false_iff] at ih
      cases plan <;> simp [planStep, ih]
    | ok ps =>
      have rest : l.map (parsePlanEntry b n) = ps.map some := (ih ps).1 hr
      rw [rest]
      cases hx : parsePlanEntry b n x <;> cases plan <;> simp [planStep, hx, List.map_inj_right]

theorem parsePlan_error (b : List Byte) (n e : Nat) : parsePlan b n = .error e ↔
    e < n ∧ parsePlanEntry b n e = none ∧ ∀ j, j < e → parsePlanEntry b n j ≠ none := by
  rw [parsePlan_eq, planSteps_error, List.find?_range_eq_some]
  simp [Option.isSome_iff_ne_none, and_left_comm]

theorem parsePlan_ok (b : List Byte) (n : Nat) (plan : List PlanEntry) : parsePlan b n = .ok plan ↔
    plan.length = n ∧ ∀ e, e < n → parsePlanEntry b n e = plan[e]? ∧ parsePlanEntry b n e ≠ none := by
  rw [parsePlan_eq, planSteps_ok]
  constructor
  · intro h
    have len : plan.length = n := by simpa using (congrArg List.length h).symm
    refine ⟨len, fun e he => ?_⟩
    have read : parsePlanEntry b n e = some plan[e] := by
      have := congrArg (fun l => l[e]?) h
      simpa [he, len] using this
    rw [read]
    simp [len, he]
  · rintro ⟨len, h⟩
    refine List.ext_getElem (by simp [len]) fun e he _ => ?_
    rw [List.length_map, List.length_range] at he
    simp [(h e he).1, len, he]

/-! ### The openings (R22 to R24) -/

/-- An entry of the plan that is no LACUNA (R20). -/
def PhysicalAt (plan : List PlanEntry) (k : Nat) : Prop := ∃ p, plan[k]? = some p ∧ p.kind ≠ .lacuna

theorem planAt_of_getElem? {plan : List PlanEntry} {e : Nat} {p : PlanEntry} (h : plan[e]? = some p) :
    planAt plan e = p := by rw [planAt, List.getD_eq_getElem?_getD, h]; rfl

theorem planAt_physical (plan : List PlanEntry) (k : Nat) : (planAt plan k).physical = true ↔ PhysicalAt plan k := by
  unfold PhysicalAt
  cases h : plan[k]? with
  | none => simp [planAt, PlanEntry.physical, h]
  | some p => simp [planAt_of_getElem? h, PlanEntry.physical]

theorem PhysicalAt.lt {plan : List PlanEntry} {k : Nat} (h : PhysicalAt plan k) : k < plan.length := by
  obtain ⟨p, hp, -⟩ := h
  exact (List.getElem?_eq_some_iff.1 hp).1

theorem nextPhysical_of_first {plan : List PlanEntry} {e j : Nat} (hj : e < j) (hp : PhysicalAt plan j)
    (first : ∀ k, e < k → k < j → ¬PhysicalAt plan k) : nextPhysical plan e = j := by
  have found : (List.range plan.length).find? (fun i => e < i && (planAt plan i).physical) = some j := by
    rw [List.find?_range_eq_some]
    refine ⟨by simp [hj, (planAt_physical plan j).2 hp], by simpa using hp.lt, fun k hk => ?_⟩
    by_cases he : e < k
    · have no := first k he hk
      rw [← planAt_physical] at no
      simp [no]
    · simp [he]
  rw [nextPhysical, found]; rfl

theorem nextPhysical_of_none {plan : List PlanEntry} {e : Nat} (h : ∀ j, e < j → ¬PhysicalAt plan j) :
    nextPhysical plan e = plan.length := by
  have none : (List.range plan.length).find? (fun i => e < i && (planAt plan i).physical) = none := by
    rw [List.find?_eq_none]
    intro k _
    rw [Bool.and_eq_true, decide_eq_true_eq, planAt_physical]
    exact fun ⟨he, hk⟩ => h k he hk
  rw [nextPhysical, none]; rfl

/-- The last index below n of those that satisfy p. -/
theorem find?_reverse_range {n e : Nat} {p : Nat → Bool} (he : e < n) (hp : p e = true)
    (last : ∀ k, e < k → k < n → p k = false) : (List.range n).reverse.find? p = some e := by
  induction n with
  | zero => omega
  | succ n ih =>
    rw [List.range_succ, List.reverse_concat, List.find?_cons]
    by_cases h : e = n
    · rw [← h, hp]
    · rw [last n (by omega) (by omega)]
      exact ih (by omega) fun k hk hn => last k hk (by omega)

theorem lastOpening_of_last {plan : List PlanEntry} {e : Nat} (he : e + 1 < plan.length) (hp : PhysicalAt plan e)
    (last : ∀ k, e < k → k + 1 < plan.length → ¬PhysicalAt plan k) : lastOpening plan = e := by
  rw [lastOpening, find?_reverse_range (by omega) ((planAt_physical plan e).2 hp)]
  · rfl
  · intro k hk hn
    rw [← Bool.not_eq_true, planAt_physical]
    exact last k hk (by omega)

/-- Settles O20: the entry's checks, the plan's, and the openings, each from its own lemma. -/
theorem planChecksStopAtTheFirstFailure : Obligations.PlanChecksStopAtTheFirstFailure := by
  refine ⟨fun b n e => ⟨?_, fun p hp => ?_⟩, parsePlan_error, parsePlan_ok, fun plan e => ⟨fun p => planAt_of_getElem?,
    fun j hj => nextPhysical_of_first hj, nextPhysical_of_none, fun he hp last => ?_⟩,
    fun v => ⟨rfl, by simp [Vau.atLastOpening], rfl, rfl, rfl, rfl⟩⟩
  · rw [parsePlanEntry_ne_none, ← Kind.ofCode_isSome]
    constructor
    · rintro ⟨k, hk, pass⟩
      exact ⟨⟨k, hk⟩, (entryPasses_iff (Kind.code_of_ofCode hk)).1 pass⟩
    · rintro ⟨⟨k, hk⟩, pass⟩
      exact ⟨k, hk, (entryPasses_iff (Kind.code_of_ofCode hk)).2 pass⟩
  · obtain ⟨k, hk, -⟩ := (parsePlanEntry_ne_none b n e).1 (by rw [hp]; exact nofun)
    obtain ⟨-, rfl⟩ := entryPasses_of_parsed hk hp
    exact ⟨Kind.code_of_ofCode hk, rfl, rfl⟩
  · have opening := lastOpening_of_last he hp last
    refine ⟨opening, fun c => ?_, fun board => ?_⟩
    · rw [inOpeningRange, opening, Bool.and_eq_true, planAt_physical, decide_eq_true_eq]; rfl
    · rw [nextPhysical_of_first (j := plan.length - 1) (by omega) board fun k hk hn => last k hk (by omega)]
      omega

end Sys2Proof.Machine
end

section
/-! SUPPORT. The ledger entries of a fresh and of a resumed volume, and their bytes (R29 to R31, R39, R173). -/

namespace Sys2Proof.Machine

/-! ### Codes and statuses (Tables 2-2, 11-13) -/

theorem Status.code_of_ofCode {c : Nat} {st : Status} (h : Status.ofCode c = some st) : st.code = c := by
  unfold Status.ofCode at h
  split at h <;> cases h <;> rfl

theorem Status.ofCode_isSome (c : Nat) : (∃ st, Status.ofCode c = some st) ↔ 1 ≤ c ∧ c ≤ 6 := by
  constructor
  · rintro ⟨st, h⟩
    rw [← Status.code_of_ofCode h]
    cases st <;> decide
  · rintro ⟨hlo, hhi⟩
    have range : c = 1 ∨ c = 2 ∨ c = 3 ∨ c = 4 ∨ c = 5 ∨ c = 6 := by omega
    obtain rfl | rfl | rfl | rfl | rfl | rfl := range <;> exact ⟨_, rfl⟩

theorem Status.captured_iff (st : Status) : st = .captured ↔ st.code = 2 := by cases st <;> decide

theorem LiftReading.ofCode_eq (c : Nat) :
    LiftReading.ofCode c = if c = 1 then .two else if c = 2 then .many else .none := by
  unfold LiftReading.ofCode
  split
  · rfl
  · rfl
  · next h1 h2 => rw [if_neg h1, if_neg h2]

theorem initialStatus_eq (k : Kind) (first : Bool) (side : Side) :
    initialStatus k first side = startStatus k first side := by
  cases side <;> cases k <;> rfl

theorem Kind.ofCode_eq_some (c : Nat) (k : Kind) : Kind.ofCode c = some k ↔ c = k.code :=
  ⟨fun h => (Kind.code_of_ofCode h).symm, fun h => h ▸ Kind.ofCode_code k⟩

/-! ### A side record as read (R30) -/

/-- The bytes of a side record from offset o fit a list of n panels: its status is one, and its count is n. -/
def SideFits (b : List Byte) (o n : Nat) : Prop := 1 ≤ byteAt b o ∧ byteAt b o ≤ 6 ∧ byteAt b (o + 2) = n

/-- A side read as CAPTURED with a panel that holds no accepted frame number. -/
def SideMissing (b : List Byte) (o n : Nat) : Prop :=
  byteAt b o = 2 ∧ ∃ j, j < n ∧ leNat b (o + 8 + 8 * j) 4 = 0

theorem parseSide_isSome (b : List Byte) (o n : Nat) : (∃ r, parseSide b o n = some r) ↔ SideFits b o n := by
  unfold SideFits
  rw [← and_assoc, ← Status.ofCode_isSome]
  unfold parseSide
  cases Status.ofCode (byteAt b o) with
  | none => simp
  | some st => by_cases h : byteAt b (o + 2) = n <;> simp [h]

section ParsedSide
variable {b : List Byte} {o n : Nat} {r : SideRec} (h : parseSide b o n = some r)
include h

/-- A side record as read (Table 11-10). -/
theorem parseSide_eq : r.status.code = byteAt b o ∧ r.takes = byteAt b (o + 1) ∧ r.dose = leNat b (o + 4) 4
    ∧ r.panels = parsePanels b o n := by
  unfold parseSide at h
  split at h
  · cases h
  · next st hst =>
    obtain ⟨-, hr⟩ := Option.ite_none_right_eq_some.1 h
    cases hr
    exact ⟨Status.code_of_ofCode hst, rfl, rfl, rfl⟩

theorem parseSide_missing : SideMissing b o n ↔ r.status = .captured ∧ r.complete = false := by
  obtain ⟨hst, -, -, hp⟩ := parseSide_eq h
  rw [SideMissing, Status.captured_iff, hst, ← Bool.not_eq_true, SideRec.complete_iff, hp]
  simp [parsePanels]

/-- The correction of a side as read: RETAKE_DUE where a panel is missing, and as it is otherwise (R30). -/
theorem parseSide_correct :
    (SideMissing b o n → r.correct = { r with status := .retakeDue } ∧ r.correct ≠ r)
      ∧ (¬SideMissing b o n → r.correct = r) := by
  rw [parseSide_missing h]
  unfold SideRec.correct
  constructor
  · rintro ⟨hst, hc⟩
    rw [if_pos ⟨hst, by rw [hc]; rfl⟩]
    refine ⟨rfl, fun k => ?_⟩
    rw [← k] at hst
    cases hst
  · exact fun k => if_neg fun ⟨hst, hc⟩ => k ⟨hst, by simpa using hc⟩

theorem parseSide_corrected : r.correct ≠ r ↔ SideMissing b o n := by
  obtain ⟨missing, kept⟩ := parseSide_correct h
  exact ⟨fun k => by_contra fun m => k (kept m), fun m => (missing m).2⟩

end ParsedSide

theorem SideRec.correct_takes (r : SideRec) : r.correct.takes = r.takes ∧ r.correct.dose = r.dose := by
  unfold SideRec.correct
  split <;> exact ⟨rfl, rfl⟩

theorem parsePanels_length (b : List Byte) (o n : Nat) : (parsePanels b o n).length = n := by simp [parsePanels]

theorem parsePanels_get {b : List Byte} {o n j : Nat} (h : j < n) :
    (parsePanels b o n)[j]? = some ⟨leNat b (o + 8 + 8 * j) 4, leNat b (o + 12 + 8 * j) 4⟩ := by
  simp [parsePanels, h]

/-! ### An entry reconciled with the plan (R30) -/

/-- The bytes of entry e fit the plan entry: its kind, and both its sides. -/
def EntryFits (b : List Byte) (e : Nat) (p : PlanEntry) : Prop :=
  byteAt b (192 * e) = p.kind.code ∧ ∀ side, SideFits b (192 * e + sideOffset side) (p.panelsOf side)

theorem Side.forall_iff {P : Side → Prop} : (∀ side, P side) ↔ P .verso ∧ P .recto :=
  ⟨fun h => ⟨h _, h _⟩, fun ⟨hv, hr⟩ side => by cases side <;> assumption⟩

theorem Side.exists_iff {P : Side → Prop} : (∃ side, P side) ↔ P .verso ∨ P .recto := by
  constructor
  · rintro ⟨side, h⟩
    cases side
    · exact .inl h
    · exact .inr h
  · rintro (h | h) <;> exact ⟨_, h⟩

theorem fitSides_isSome (b : List Byte) (e : Nat) (p : PlanEntry) :
    (∃ q, fitSides p b (192 * e) = some q) ↔ EntryFits b e p := by
  rw [EntryFits, Side.forall_iff, ← parseSide_isSome, ← parseSide_isSome, ← Kind.ofCode_eq_some]
  constructor
  · rintro ⟨⟨v, r⟩, h⟩
    obtain ⟨hk, hv, hr⟩ := fitSides_some h
    exact ⟨hk, ⟨v, hv⟩, ⟨r, hr⟩⟩
  · rintro ⟨hk, ⟨v, hv⟩, ⟨r, hr⟩⟩
    refine ⟨(v, r), ?_⟩
    unfold fitSides
    rw [if_pos hk]
    simp only [show parseSide b (192 * e + 16) (p.panelsOf .verso) = some v from hv,
      show parseSide b (192 * e + 88) (p.panelsOf .recto) = some r from hr]

/-- What a reconciled entry holds whether it was reset or not. -/
theorem reconcile_common (b : List Byte) (e : Nat) (p : PlanEntry) :
    let x := (reconcile b e p).1
    x.kind = p.kind ∧ x.tag = p.tag ∧ x.attempts = min 15 (byteAt b (192 * e + 2))
      ∧ x.reading = .ofCode (byteAt b (192 * e + 3)) ∧ x.uncertain = (byteAt b (192 * e + 1)).testBit 1 := by
  have bit1 (n : Nat) : (n / 2 % 2 == 1) = n.testBit 1 := by
    rw [Nat.testBit_eq_decide_div_mod_eq]; rfl
  unfold reconcile
  dsimp only
  cases fitSides p b (192 * e) <;> exact ⟨rfl, rfl, rfl, rfl, bit1 _⟩

/-- An entry that does not fit is reset (R30). -/
theorem reconcile_of_reset {b : List Byte} {e : Nat} {p : PlanEntry} (h : ¬EntryFits b e p) :
    let x := (reconcile b e p).1
    x.amended = true ∧ (reconcile b e p).2 = true ∧ ∀ side, x.sideRec side = initialSide p (e == 0) side
      (byteAt b (192 * e + sideOffset side + 1)) (leNat b (192 * e + sideOffset side + 4) 4) := by
  have none : fitSides p b (192 * e) = none := by
    rw [← fitSides_isSome] at h
    exact Option.eq_none_iff_forall_ne_some.2 fun q k => h ⟨q, k⟩
  simp only [reconcile, none]
  exact ⟨trivial, trivial, fun side => by cases side <;> rfl⟩

/-- An entry that fits keeps its flag and its sides as read, and is written back when a value differs (R30). -/
theorem reconcile_of_fits {b : List Byte} {e : Nat} {p : PlanEntry} (h : EntryFits b e p) :
    let x := (reconcile b e p).1
    x.amended = (byteAt b (192 * e + 1)).testBit 0
      ∧ (∀ side, ∃ r, parseSide b (192 * e + sideOffset side) (p.panelsOf side) = some r ∧ x.sideRec side = r.correct)
      ∧ ((reconcile b e p).2 = true ↔
        (∃ side, SideMissing b (192 * e + sideOffset side) (p.panelsOf side)) ∨ 15 < byteAt b (192 * e + 2)
          ∨ 2 < byteAt b (192 * e + 3) ∨ 3 < byteAt b (192 * e + 1) ∨ leNat b (192 * e + 4) 4 ≠ p.tag) := by
  obtain ⟨⟨v, r⟩, hq⟩ := (fitSides_isSome b e p).2 h
  obtain ⟨-, hv, hr⟩ := fitSides_some hq
  simp only [reconcile, hq]
  refine ⟨by rw [Nat.testBit_zero]; rfl, fun side => ?_, ?_⟩
  · cases side with
    | verso => exact ⟨v, hv, rfl⟩
    | recto => exact ⟨r, hr, rfl⟩
  · rw [Side.exists_iff]
    simp only [Bool.or_eq_true, bne_iff_ne, decide_eq_true_eq, parseSide_corrected hv, parseSide_corrected hr, or_assoc]
    rfl

/-! ### The bytes of a record (Tables 11-9, 11-10) -/

/-- A field of a record as its offset, its width and its value. -/
def FieldVal.triple (f : FieldVal) : Nat × Nat × Nat := (f.offset, f.width, f.value)

theorem sideFields_triple (o : Nat) (r : SideRec) : (sideFields o r).map FieldVal.triple = sideLayout o r := by
  unfold sideFields sideLayout
  rw [List.map_append, mapFrom_eq_map _ _ ⟨0, 0⟩, ← List.flatMap_def, List.map_flatMap]
  rfl

theorem entryFields_triple (x : LedgerEntry) :
    ([⟨0, 1, x.kind.code⟩, ⟨1, 1, bit x.amended + 2 * bit x.uncertain⟩, ⟨2, 1, x.attempts⟩, ⟨3, 1, x.reading.code⟩,
        ⟨4, 4, x.tag⟩] ++ sideFields 16 x.verso ++ sideFields 88 x.recto : List FieldVal).map FieldVal.triple
      = [(0, 1, x.kind.code), (1, 1, (if x.amended then 1 else 0) + (if x.uncertain then 2 else 0)),
          (2, 1, x.attempts), (3, 1, x.reading.code), (4, 4, x.tag)]
        ++ sideLayout 16 x.verso ++ sideLayout 88 x.recto := by
  have flags : bit x.amended + 2 * bit x.uncertain
      = (if x.amended then 1 else 0) + (if x.uncertain then 2 else 0) := by
    cases x.amended <;> cases x.uncertain <;> rfl
  rw [List.map_append, List.map_append, sideFields_triple, sideFields_triple, flags]
  rfl

theorem headerBytes_laidOut (v : Vau) (dose : Nat) :
    let count (st : Status) : Nat := countStatus v.mirror st
    LaidOut 0 256 (headerBytes v dose)
      [(0, 4, v.key), (4, 1, v.profile.getD 0), (8, 2, v.cursor), (12, 4, v.nextFrame), (16, 8, dose),
       (24, 2, count .pending), (26, 2, count .captured), (28, 2, count .retakeDue), (30, 2, count .withheld),
       (32, 2, count .skipped), (34, 2, count .exempt)] :=
  layout_laidOut 256 _ ⟨by simp, by simp⟩

/-! ### The fresh ledger (R29) -/

theorem initialSide_eq (p : PlanEntry) (first : Bool) (side : Side) (takes dose : Nat) :
    initialSide p first side takes dose = ⟨startStatus p.kind first side, takes, dose, List.replicate (p.panelsOf side) ⟨0, 0⟩⟩ := by
  rw [initialSide, initialStatus_eq, emptyPanels]

theorem freshMirror_get {plan : List PlanEntry} {e : Nat} {p : PlanEntry} (h : plan[e]? = some p) :
    (freshMirror plan)[e]? = some (freshEntry p (e == 0)) := by
  rw [freshMirror, mapFrom_get, h, Nat.zero_add]; rfl

/-- Settles O23: the fresh entry, the entry read back in its two cases, and the records by their fields. -/
theorem ledgerEntriesStartSound : Obligations.LedgerEntriesStartSound := by
  refine ⟨fun plan e p hp => ⟨mapFrom_length .., ?_⟩, ?_, fun x hv hr => ?_, headerBytes_laidOut, rfl, rfl, rfl⟩
  · rw [freshMirror_get hp, freshEntry, initialSide_eq, initialSide_eq]; rfl
  · intro b e p o x offset count fits missing
    have hoffset : ∀ side, offset side = 192 * e + sideOffset side := by rintro (_ | _) <;> rfl
    have hcount : ∀ side, count side = p.panelsOf side := by rintro (_ | _) <;> rfl
    have hmissing (side : Side) : missing side ↔ SideMissing b (192 * e + sideOffset side) (p.panelsOf side) := by
      rw [← hoffset, ← hcount]; exact Iff.rfl
    have hfits : fits ↔ EntryFits b e p := by
      unfold EntryFits
      simp only [← hoffset, ← hcount]
      exact Iff.rfl
    obtain ⟨hkind, htag, hattempts, hreading, huncertain⟩ := reconcile_common b e p
    obtain ⟨⟨verso, recto⟩, -⟩ := reconcile_laws b e p
    refine ⟨hkind, htag, hattempts, hreading.trans (LiftReading.ofCode_eq _), huncertain, fun side => ?_, fun k => ?_,
      fun k => ?_⟩
    · have law : (x.sideRec side).CaptureLaw := by cases side; exacts [verso, recto]
      rw [hoffset, hcount]
      by_cases k : EntryFits b e p
      · obtain ⟨-, sides, -⟩ := reconcile_of_fits k
        obtain ⟨r, hr, hx⟩ := sides side
        obtain ⟨-, htakes, hdose, hpanels⟩ := parseSide_eq hr
        obtain ⟨takes, dose⟩ := r.correct_takes
        have len : (x.sideRec side).panels.length = p.panelsOf side := by
          rw [hx, r.correct_panels, hpanels, parsePanels_length]
        exact ⟨by rw [hx, takes, htakes], by rw [hx, dose, hdose], len, law⟩
      · obtain ⟨-, -, sides⟩ := reconcile_of_reset k
        have hx := sides side
        rw [initialSide_eq] at hx
        exact ⟨by rw [hx], by rw [hx], by rw [hx]; exact List.length_replicate, law⟩
    · obtain ⟨amended, written, sides⟩ := reconcile_of_reset (fun m => k (hfits.2 m))
      refine ⟨amended, written, fun side => ?_⟩
      have hx := sides side
      rw [initialSide_eq] at hx
      rw [hcount]
      exact ⟨by rw [hx], by rw [hx]⟩
    · obtain ⟨amended, sides, written⟩ := reconcile_of_fits (hfits.1 k)
      simp only [← hmissing] at written
      refine ⟨amended, fun side => ?_, written⟩
      obtain ⟨r, hr, hx⟩ := sides side
      obtain ⟨hstatus, -, -, hpanels⟩ := parseSide_eq hr
      obtain ⟨corrected, kept⟩ := parseSide_correct hr
      rw [hmissing, hoffset, hcount]
      refine ⟨fun m => by rw [hx, (corrected m).1], fun m => by rw [hx, kept m, hstatus], fun j hj => ?_⟩
      rw [hx, r.correct_panels, hpanels, parsePanels_get hj]
  · rw [← entryFields_triple]
    exact entryBytes_laidOut x hv hr

end Sys2Proof.Machine
end

section
/-! SUPPORT. What a reset leaves of host memory (R55, R56, log 6): each byte of a write that is cut either reaches it or
does not. -/

namespace Sys2Proof.Machine

/-! ### Writes cut by a reset -/

/-- A byte of host memory after l's writes were cut: as in m, or as one of them left it. -/
def Memory.CutBy (l : List HostWrite) (m k : List Host.Cell) : Prop :=
  ∀ a, Memory.read k a = Memory.read m a
    ∨ ∃ w ∈ l, ∃ i, i < w.bytes.length ∧ a = w.addr + i ∧ Memory.read k a = w.bytes[i]?

theorem cutByte_read (m : List Host.Cell) (a n : Nat) (v : Byte) (x : Nat) :
    Memory.read (cutByte (m, a, n) v).1 x = Memory.read m x
      ∨ x = a ∧ Memory.read (cutByte (m, a, n) v).1 x = some v := by
  simp only [cutByte]
  split
  · by_cases h : x = a
    · exact .inr ⟨h, h ▸ Memory.read_write_self ..⟩
    · exact .inl (Memory.read_write_other _ _ h)
  · exact .inl rfl

theorem cutBytes_read (b : List Byte) (m : List Host.Cell) (a n x : Nat) :
    Memory.read (b.foldl cutByte (m, a, n)).1 x = Memory.read m x
      ∨ ∃ i, i < b.length ∧ x = a + i ∧ Memory.read (b.foldl cutByte (m, a, n)).1 x = b[i]? := by
  induction b generalizing m a n with
  | nil => exact .inl rfl
  | cons v b ih =>
    obtain rest | ⟨i, hi, hx, read⟩ := ih (cutByte (m, a, n) v).1 (a + 1) (n + 1)
    · obtain same | ⟨hx, read⟩ := cutByte_read m a n v x
      · exact .inl (rest.trans same)
      · exact .inr ⟨0, Nat.zero_lt_succ _, hx, rest.trans read⟩
    · exact .inr ⟨i + 1, Nat.succ_lt_succ hi, by omega, read⟩

/-- The writes in flight cut by a reset, whatever bytes reach host memory. -/
theorem State.cutWrites_cutBy (s : State) : Memory.CutBy s.host.inFlight s.host.mem s.cutWrites.host.mem := by
  intro a
  simp only [State.cutWrites]
  generalize s.host.inFlight = l
  generalize s.free = n
  generalize s.host.mem = m
  induction l generalizing m n with
  | nil => exact .inl rfl
  | cons w l ih =>
    obtain rest | ⟨v, hv, found⟩ := ih _ _
    · obtain same | ⟨i, hi, ha, read⟩ := cutBytes_read w.bytes m w.addr n a
      · exact .inl (rest.trans same)
      · exact .inr ⟨w, List.mem_cons_self, i, hi, ha, rest.trans read⟩
    · exact .inr ⟨v, List.mem_cons_of_mem _ hv, found⟩

theorem Memory.CutBy.mono {l r : List HostWrite} {m k : List Host.Cell} (h : Memory.CutBy l m k)
    (sub : ∀ w ∈ l, w ∈ r) : Memory.CutBy r m k := fun a =>
  (h a).imp_right fun ⟨w, hw, found⟩ => ⟨w, sub w hw, found⟩

/-- A byte that no write cut covers stays as it was. -/
theorem Memory.CutBy.other {l : List HostWrite} {m k : List Host.Cell} (h : Memory.CutBy l m k) {a : Nat}
    (ha : ∀ w ∈ l, ¬w.Covers a) : Memory.read k a = Memory.read m a := by
  obtain same | ⟨w, hw, i, hi, rfl, -⟩ := h a
  · exact same
  · exact absurd ⟨Nat.le_add_right .., Nat.add_lt_add_left hi _⟩ (ha w hw)

/-! ### A controller reset (R55, R171) -/

theorem State.cutCloseValid_mem (s : State) : s.cutCloseValid.host.mem = s.host.mem := by
  unfold State.cutCloseValid
  split <;> rfl

theorem State.cutCloseValid_inFlight {s : State} {w : HostWrite} (h : w ∈ s.cutCloseValid.host.inFlight) :
    w ∈ s.host.inFlight ∧ (s.vau.vol = .closing → s.isCloseValid w = false) := by
  unfold State.cutCloseValid at h
  split at h
  · obtain ⟨hw, hn⟩ := List.mem_filter.1 h
    exact ⟨hw, fun _ => by simpa using hn⟩
  · next hv => exact ⟨h, fun k => absurd k hv⟩

/-- What a controller reset leaves of host memory: only writes that `cutCloseValid` lets through may reach it. -/
theorem State.controllerReset_cutBy (s : State) :
    Memory.CutBy s.cutCloseValid.host.inFlight s.host.mem s.controllerReset.host.mem := by
  have h := s.cutCloseValid.cutWrites_cutBy
  rwa [State.cutCloseValid_mem] at h

theorem State.isCloseValid_iff (s : State) (w : HostWrite) : s.isCloseValid w = true ↔
    w.writer = .vau ∧ w.addr = s.exp.base.toNat * 4096 + 0x1000 + 38 ∧ w.bytes.length = 1 := by
  simp [State.isCloseValid, State.area, closeOffset, and_assoc]

/-- In CLOSING no write of the valid flag alone reaches host memory (R55). -/
theorem State.controllerReset_closeValid {s : State} (hv : s.vau.vol = .closing)
    (alone : ∀ w ∈ s.host.inFlight, w.Covers (s.exp.base.toNat * 4096 + 0x1000 + 38) → s.isCloseValid w = true) :
    Memory.read s.controllerReset.host.mem (s.exp.base.toNat * 4096 + 0x1000 + 38)
      = Memory.read s.host.mem (s.exp.base.toNat * 4096 + 0x1000 + 38) := by
  refine s.controllerReset_cutBy.other fun w hw covers => ?_
  obtain ⟨inFlight, dropped⟩ := State.cutCloseValid_inFlight hw
  exact absurd (alone w inFlight covers) (by simp [dropped hv])

/-- A command that resets is a power-on or leads to the controller reset (R161, R171). -/
theorem exec_of_resets {c : Instr} (s : State) (h : resets c = true) :
    (∃ park up down, c = .powerOnReset park up down) ∨ exec c s = .next s.controllerReset := by
  cases c with
  | powerOnReset park up down => exact .inl ⟨park, up, down, rfl⟩
  | controlReset e => exact .inr rfl
  | controlEnable v => exact .inr (exec_controllerReset (.inr ⟨v, rfl, h⟩) s)
  | _ => cases h

/-- Settles O4: the writes cut byte by byte, and in CLOSING the write of the valid flag dropped whole. -/
theorem resetCutsWritesInFlight : Obligations.ResetCutsWritesInFlight := by
  intro c s t hc ht
  obtain ⟨park, up, down, rfl⟩ | hreset := exec_of_resets s hc
  · obtain rfl := next_inj ht
    exact ⟨rfl, s.cutWrites_cutBy, fun h => absurd rfl (h park up down)⟩
  · obtain rfl := next_inj (hreset.symm.trans ht)
    refine ⟨rfl, s.controllerReset_cutBy.mono fun w hw => ?_, fun _ hv alone => ?_⟩
    · obtain ⟨inFlight, -⟩ := State.cutCloseValid_inFlight hw
      exact inFlight
    · exact State.controllerReset_closeValid hv fun w hw covers => (s.isCloseValid_iff w).2 (alone w hw covers)

end Sys2Proof.Machine
end

section
/-! SUPPORT. Skip marking (R44, R45), entry by entry. -/

namespace Sys2Proof.Machine

theorem PlanEntry.physical_iff (p : PlanEntry) : p.physical = true ↔ p.kind ≠ .lacuna := bne_iff_ne

theorem skipMark_length (plan : List PlanEntry) (c c' : Nat) (mirror : List LedgerEntry) :
    (skipMark plan c c' mirror).length = mirror.length := mapFrom_length ..

theorem skipMark_get (plan : List PlanEntry) (c c' : Nat) (mirror : List LedgerEntry) (e : Nat) :
    (skipMark plan c c' mirror)[e]? = mirror[e]?.map (skipEntry plan c c' e) := by
  rw [skipMark, mapFrom_get, Nat.zero_add]

/-- A move that hides nothing leaves an entry as it is (R45). -/
theorem skipEntry_of_le {c c' : Nat} (h : c' ≤ c) (plan : List PlanEntry) (e : Nat) (x : LedgerEntry) :
    skipEntry plan c c' e x = x := by
  unfold skipEntry
  rw [if_neg (show ¬(c ≤ e ∧ e < c') by omega), if_neg (show ¬(c < e ∧ e ≤ c') by omega), ite_self]

theorem skipMark_of_le {c c' : Nat} (h : c' ≤ c) (plan : List PlanEntry) (mirror : List LedgerEntry) :
    skipMark plan c c' mirror = mirror := by
  refine List.ext_getElem? fun e => ?_
  rw [skipMark_get, funext (skipEntry_of_le h plan e), Option.map_id_fun']
  rfl

/-- What skip marking leaves of an entry, and the statuses of its sides (R44). -/
theorem skipEntry_spec (plan : List PlanEntry) (c c' e : Nat) (x : LedgerEntry) :
    let y := skipEntry plan c c' e x
    let hides (p : Prop) [Decidable p] (st : Status) : Status :=
      if (planAt plan e).kind ≠ .lacuna ∧ p ∧ st = .pending then .skipped else st
    y = { x with
        verso := { x.verso with status := y.verso.status }
        recto := { x.recto with status := y.recto.status } }
      ∧ y.verso.status = hides (c ≤ e ∧ e < c') x.verso.status
      ∧ y.recto.status = hides (c < e ∧ e ≤ c') x.recto.status := by
  dsimp only
  unfold skipEntry
  split
  · next h =>
    have leaf : (planAt plan e).kind ≠ .lacuna := (PlanEntry.physical_iff _).1 h
    refine ⟨?_, ?_, ?_⟩ <;> dsimp only
    · split <;> split <;> rfl
    · split <;> simp [Status.skip, *]
    · split <;> simp [Status.skip, *]
  · next h =>
    have lacuna : ¬(planAt plan e).kind ≠ .lacuna := fun k => h ((PlanEntry.physical_iff _).2 k)
    exact ⟨rfl, (if_neg fun k => lacuna k.1).symm, (if_neg fun k => lacuna k.1).symm⟩

/-- Settles O27, entry by entry. -/
theorem skipMarkingHidesThePassedSides : Obligations.SkipMarkingHidesThePassedSides := by
  intro plan c c' mirror
  refine ⟨skipMark_length .., fun h => skipMark_of_le h plan mirror, fun e x hx => ?_⟩
  obtain ⟨same, verso, recto⟩ := skipEntry_spec plan c c' e x
  refine ⟨_, by rw [skipMark_get, hx]; rfl, same, ?_, ?_⟩
  · simpa [and_assoc] using verso
  · simpa [and_assoc] using recto

end Sys2Proof.Machine
end

section
/-! SUPPORT. The end of a cycle order (R59, R60, R68, R72, R76): the reservations released, the retake list abandoned,
and the order ended, whole. -/

namespace Sys2Proof.Machine

/-! ### The reservations released (R72, R147) -/

/-- One reservation released: its descriptor goes back through FBK, and where none is held nothing happens. -/
theorem State.releaseHeldOf_step (s : State) (c : Chan) : (s.occ.held.get c = none → s.releaseHeldOf c = s)
    ∧ ∀ r, s.occ.held.get c = some r → s.releaseHeldOf c
        = State.releaseDesc { s with occ := { s.occ with held := s.occ.held.set c none } } c r.bank r.index := by
  unfold State.releaseHeldOf
  exact ⟨fun h => by rw [h], fun r h => by rw [h]; rfl⟩

/-- In t no reservation of s is held, and every descriptor that was RESERVED for one is FREE. -/
def State.Released (s t : State) : Prop := t.occ.held = ⟨none, none⟩
  ∧ ∀ c r, s.occ.held.get c = some r → ((s.fbk.get c).bank r.bank).desc r.index = .reserved →
      ((t.fbk.get c).bank r.bank).desc r.index = .free

theorem State.releaseHeld_released (s : State) : State.Released s s.releaseHeld := by
  obtain ⟨free, n, f, h⟩ := s.releaseHeld_spec
  exact ⟨by rw [h], free⟩

/-! ### The end of an order (R72, R76) -/

/-- The order o of s has ended in t: t is s but for the notes, the account, OCC, the banks and the writes issued, which
are the ledger's, the order's answer and the answers to the STOPs; the banks and the notes are as the entry into the
volume state leaves those of `rest`; and OCC keeps of the order its last reservations and retake list alone. -/
def State.Ended (s : State) (o : CycleOrder) (t rest : State) (code : AnswerCode) (fields : List FieldVal)
    (ledger : List (Nat × List Byte)) : Prop :=
  t = { s with exp := { s.exp with note := t.exp.note }, vau := t.vau, occ := t.occ, fbk := t.fbk, host := t.host }
  ∧ t.host = s.occ.stops.foldl (fun h i => h.answered s.exp.base i .done [])
      ((s.host.issued .vau ledger).answered s.exp.base o.slot code fields)
  ∧ t.fbk = (rest.enterRest t.vau.vol).fbk ∧ t.exp.note = (rest.enterRest t.vau.vol).exp.note
  ∧ t.occ = { s.occ with
      order := none, pendingPause := none, roomWatch := none, work := .none, todo := []
      awaiting := ⟨false, false⟩, stops := [], outcome := none
      held := t.occ.held, retakes := t.occ.retakes }

/-- No note of the state before the entry into the volume state is lowered by the end. -/
theorem State.Ended.note {s t rest : State} {o : CycleOrder} {code : AnswerCode} {fields : List FieldVal}
    {ledger : List (Nat × List Byte)} (h : s.Ended o t rest code fields ledger) {k : Nat}
    (hk : rest.exp.note.getLsbD k = true) : t.exp.note.getLsbD k = true := by
  obtain ⟨-, -, -, note, -⟩ := h
  rw [note]
  exact (State.enterRest_kept _ _).note k hk

/-- u is s with the notes, the account, the reservations, the retake list and the banks changed, and ledger writes
issued: what may precede the end of an order (R72). -/
def State.EndPrepared (s : State) (ledger : List (Nat × List Byte)) (u : State) : Prop :=
  ∃ n w held retakes f, u = { s with
    exp := { s.exp with note := n }, vau := w, occ := { s.occ with held := held, retakes := retakes }, fbk := f
    host := s.host.issued .vau ledger }

theorem State.EndPrepared.order {s u : State} {ledger : List (Nat × List Byte)} (h : s.EndPrepared ledger u) :
    u.occ.order = s.occ.order := by
  obtain ⟨n, w, held, retakes, f, rfl⟩ := h
  rfl

section EndOrder
variable {s u : State} {o : CycleOrder}

theorem State.endOrder_vau (h : u.occ.order = some o) (code : AnswerCode) (fields : List FieldVal) (v : VolState) :
    (u.endOrder code fields v).vau = { u.vau with vol := v } := by rw [u.endOrder_eq o h]

theorem State.endOrder_occ (h : u.occ.order = some o) (code : AnswerCode) (fields : List FieldVal) (v : VolState) :
    (u.endOrder code fields v).occ = u.occ.clearOrder := by rw [u.endOrder_eq o h]

theorem State.Released.endOrder (r : State.Released s u) (h : u.occ.order = some o) (code : AnswerCode)
    (fields : List FieldVal) (v : VolState) : State.Released s (u.endOrder code fields v) := by
  obtain ⟨held, free⟩ := r
  rw [u.endOrder_eq o h]
  exact ⟨held, fun c r hr hd => by rw [State.enterRest_desc]; exact free c r hr hd⟩

/-- The order of s ended from a state u that differs in what precedes the end of an order. -/
theorem State.endOrder_ended {ledger : List (Nat × List Byte)} (h : s.occ.order = some o) (hu : s.EndPrepared ledger u)
    {rest : State} (hf : rest.fbk = u.fbk) (hn : rest.exp.note = u.exp.note) (code : AnswerCode)
    (fields : List FieldVal) (v : VolState) : s.Ended o (u.endOrder code fields v) rest code fields ledger := by
  rw [u.endOrder_eq o (hu.order.trans h)]
  obtain ⟨banks, notes⟩ := State.enterRest_banks rest u v hf.symm hn.symm
  obtain ⟨n, w, held, retakes, f, rfl⟩ := hu
  exact ⟨rfl, rfl, banks, notes, rfl⟩

end EndOrder

theorem State.EndPrepared.refl (s : State) : s.EndPrepared [] s :=
  ⟨s.exp.note, s.vau, s.occ.held, s.occ.retakes, s.fbk, by rw [HostSide.issued_nil]⟩

theorem State.releaseHeld_prepared (s : State) : s.EndPrepared [] s.releaseHeld := by
  obtain ⟨-, n, f, h⟩ := s.releaseHeld_spec
  exact ⟨n, s.vau, ⟨none, none⟩, s.occ.retakes, f, by rw [h, HostSide.issued_nil]⟩

theorem State.endDone_ended {s : State} {o : CycleOrder} (h : s.occ.order = some o) (fields : List FieldVal) :
    s.Ended o (s.endDone fields) s .done (s.occ.counts ++ fields) [] := State.endOrder_ended h (.refl s) rfl rfl ..

/-! ### A stopped order (R76) -/

theorem ChanSet.isEmpty_iff (x : ChanSet) : x.isEmpty = true ↔ x = ⟨false, false⟩ := by
  obtain ⟨_ | _, _ | _⟩ := x <;> decide

/-- Once FBK owes no answer, a stopped order ends from the state in which its reservations are released. -/
theorem State.endStopped_of_settled {s : State} (h : s.occ.releasing = ⟨false, false⟩) :
    s.endStopped = s.releaseHeld.endOrder .stopped s.occ.counts .ready := by
  obtain ⟨-, n, f, hr⟩ := s.releaseHeld_spec
  unfold State.endStopped
  dsimp only
  rw [if_pos (by rw [hr, ChanSet.isEmpty_iff]; exact h)]
  congr 1
  rw [hr]; rfl

theorem State.endStopped_of_unsettled {s : State} (h : s.occ.releasing ≠ ⟨false, false⟩) : s.endStopped = { s with
    exp := { s.exp with note := s.releaseHeld.exp.note }
    occ := { s.occ with held := ⟨none, none⟩, work := .releasing, roomWatch := none }
    fbk := s.releaseHeld.fbk } := by
  obtain ⟨-, n, f, hr⟩ := s.releaseHeld_spec
  unfold State.endStopped
  dsimp only
  rw [if_neg (by rw [hr, ChanSet.isEmpty_iff]; exact h), hr]
  rfl

theorem State.endStopped_released {s : State} {o : CycleOrder} (h : s.occ.order = some o) :
    State.Released s s.endStopped := by
  by_cases hr : s.occ.releasing = ⟨false, false⟩
  · rw [State.endStopped_of_settled hr]
    exact s.releaseHeld_released.endOrder (s.releaseHeld_prepared.order.trans h) ..
  · obtain ⟨-, free⟩ := s.releaseHeld_released
    rw [State.endStopped_of_unsettled hr]
    exact ⟨rfl, free⟩

theorem State.endStopped_ended {s : State} {o : CycleOrder} (h : s.occ.order = some o)
    (hr : s.occ.releasing = ⟨false, false⟩) : s.Ended o s.endStopped s.releaseHeld .stopped s.occ.counts []
      ∧ s.endStopped.occ.retakes = s.occ.retakes ∧ s.endStopped.vau = { s.vau with vol := .ready } := by
  obtain ⟨-, n, f, hs⟩ := s.releaseHeld_spec
  have order := s.releaseHeld_prepared.order.trans h
  rw [State.endStopped_of_settled hr]
  refine ⟨State.endOrder_ended h s.releaseHeld_prepared rfl rfl .., ?_, ?_⟩
  · rw [State.endOrder_occ order, hs]; rfl
  · rw [State.endOrder_vau order, hs]

/-! ### The retake list abandoned (R42, R68) -/

theorem Status.reject_eq (st : Status) : st.reject = if st = .pending ∨ st = .skipped then .retakeDue else st := by
  cases st <;> rfl

theorem RejectedEntry.status {listed : Side → Prop} {x y : LedgerEntry} (h : RejectedEntry listed x y) (side : Side)
    [Decidable (listed side ∧ ((x.sideRec side).status = .pending ∨ (x.sideRec side).status = .skipped))] :
    (y.sideRec side).status
      = if listed side ∧ ((x.sideRec side).status = .pending ∨ (x.sideRec side).status = .skipped) then .retakeDue
        else (x.sideRec side).status := by
  obtain ⟨-, sides⟩ := h
  obtain ⟨yes, no⟩ := sides side
  by_cases hl : listed side
  · rw [yes hl, Status.reject_eq]; simp [hl]
  · rw [no hl, if_neg fun k => hl k.1]

/-- The mirror that the abandoned retake list leaves, and the writes of its change (R36, R37, R68). -/
theorem State.abandonRetakes_spec (s : State) : ∃ m,
    s.abandonRetakes = { s with
      vau := { s.vau with mirror := m }, occ := { s.occ with retakes := [] }
      host := s.host.issued .vau (ledgerWrites s.exp.base s.vau { s.vau with mirror := m } false) }
    ∧ ∀ e x, s.vau.mirror[e]? = some x → ∃ y, m[e]? = some y
        ∧ RejectedEntry (fun side => ∃ r ∈ s.occ.retakes, r.leaf = e ∧ r.side = side) x y := by
  obtain ⟨m, writes⟩ := s.abandonRetakes_writes
  obtain ⟨m', h, changed, -, rejected⟩ := s.abandonRetakes_eq
  have same : m = m' := congrArg (fun t : State => t.vau.mirror) (writes.symm.trans changed)
  exact ⟨m, writes, same ▸ rejected⟩

/-! ### A pause (R72) -/

theorem Reason.handStep_iff (reason : Reason) : reason.handStep = true ↔ 1 ≤ reason.code ∧ reason.code ≤ 7 := by
  cases reason <;> decide

/-- The state in which a pause ends its order: the reservations released, the retake list abandoned, and for a reason of
the hand the pending hand step and NOTE.HAND. -/
def State.pausing (s : State) (reason : Reason) (entry : Nat) : State :=
  let u := s.releaseHeld.abandonRetakes
  if reason.handStep then { u with vau := { u.vau with step := some ⟨reason, entry⟩ } }.raise .hand else u

/-- The volume state after a pause (R47, R72). -/
def Reason.rest (reason : Reason) : VolState := if reason.handStep then .handWait else .ready

/-- The pending hand step after a pause (R47, R72). -/
def Reason.stepAt (reason : Reason) (entry : Nat) (old : Option HandStep) : Option HandStep :=
  if reason.handStep then some ⟨reason, entry⟩ else old

theorem State.pausing_spec (s : State) (reason : Reason) (entry : Nat) : ∃ m,
    s.pausing reason entry = { s with
      exp := { s.exp with note := s.releaseHeld.exp.note ||| (if reason.handStep then 0x08 else 0) }
      vau := { s.vau with mirror := m, step := reason.stepAt entry s.vau.step }
      occ := { s.occ with held := ⟨none, none⟩, retakes := [] }, fbk := s.releaseHeld.fbk
      host := s.host.issued .vau (ledgerWrites s.exp.base s.vau { s.vau with mirror := m } false) }
    ∧ ∀ e x, s.vau.mirror[e]? = some x → ∃ y, m[e]? = some y
        ∧ RejectedEntry (fun side => ∃ r ∈ s.occ.retakes, r.leaf = e ∧ r.side = side) x y := by
  obtain ⟨m, abandoned, rejected⟩ := s.releaseHeld.abandonRetakes_spec
  obtain ⟨-, n, f, hr⟩ := s.releaseHeld_spec
  refine ⟨m, ?_, by rw [hr] at rejected; exact rejected⟩
  unfold State.pausing Reason.stepAt
  rw [abandoned, hr]
  cases reason.handStep
  · show _ = { s with
      exp := { s.exp with note := n ||| 0#7 }, vau := { s.vau with mirror := m }
      occ := { s.occ with held := ⟨none, none⟩, retakes := [] }, fbk := f, host := _ }
    rw [BitVec.or_zero]
    rfl
  · rfl

theorem State.pauseAt_eq (s : State) (reason : Reason) (entry bound : Nat) :
    s.pauseAt reason entry bound
      = (s.pausing reason entry).endOrder .paused (s.occ.counts ++ s.pauseFields reason entry bound) reason.rest := by
  obtain ⟨m, abandoned, -⟩ := s.releaseHeld.abandonRetakes_spec
  obtain ⟨-, n, f, hr⟩ := s.releaseHeld_spec
  have counts : s.releaseHeld.abandonRetakes.occ.counts = s.occ.counts := by rw [abandoned, hr]; rfl
  have fields : s.releaseHeld.abandonRetakes.pauseFields reason entry bound = s.pauseFields reason entry bound := by
    rw [abandoned, hr]; rfl
  unfold State.pauseAt State.pausing Reason.rest
  dsimp only
  rw [counts, fields]
  split <;> rfl

theorem State.pauseFields_eq (s : State) (reason : Reason) (entry bound : Nat) :
    s.occ.counts ++ s.pauseFields reason entry bound
      = [⟨70, 2, s.occ.turnsMade⟩, ⟨72, 2, s.occ.takesMade⟩] ++ [⟨69, 1, reason.code⟩]
        ++ (if 1 ≤ reason.code ∧ reason.code ≤ 7 then [⟨74, 2, entry⟩] else [])
        ++ (if reason = .lampFault then [⟨76, 1, s.ldu.retired.toNat⟩] else [])
        ++ (if reason = .doseLimit then [⟨77, 1, bound⟩] else []) := by
  simp only [State.pauseFields, Occ.counts, Reason.handStep_iff, List.append_assoc]

/-- A pause, whole (R47, R68, R72). -/
theorem State.pauseAt_spec {s : State} {o : CycleOrder} (h : s.occ.order = some o) (reason : Reason)
    (entry bound : Nat) :
    let t := s.pauseAt reason entry bound
    let r := s.releaseHeld
    let rest : State := { r with exp := { r.exp with
      note := r.exp.note ||| (if reason.handStep then 0x08 else 0) } }
    s.Ended o t rest .paused (s.occ.counts ++ s.pauseFields reason entry bound)
      (ledgerWrites s.exp.base s.vau t.vau false)
    ∧ State.Released s t ∧ t.occ.retakes = []
    ∧ (∃ m, t.vau = { s.vau with vol := reason.rest, step := reason.stepAt entry s.vau.step, mirror := m })
    ∧ ∀ e x, s.vau.mirror[e]? = some x → ∃ y, t.vau.mirror[e]? = some y
        ∧ RejectedEntry (fun side => ∃ r ∈ s.occ.retakes, r.leaf = e ∧ r.side = side) x y := by
  dsimp only
  obtain ⟨m, pausing, rejected⟩ := s.pausing_spec reason entry
  have prepared : s.EndPrepared _ (s.pausing reason entry) := ⟨_, _, _, _, _, pausing⟩
  have order := prepared.order.trans h
  have vau : (s.pauseAt reason entry bound).vau = { s.vau with
      vol := reason.rest, step := reason.stepAt entry s.vau.step, mirror := m } := by
    rw [State.pauseAt_eq, State.endOrder_vau order, pausing]
  have occ : (s.pauseAt reason entry bound).occ = (s.pausing reason entry).occ.clearOrder := by
    rw [State.pauseAt_eq, State.endOrder_occ order]
  obtain ⟨-, free⟩ := s.releaseHeld_released
  have released : State.Released s (s.pausing reason entry) := by
    rw [pausing]; exact ⟨rfl, free⟩
  refine ⟨?_, ?_, ?_, ⟨m, vau⟩, ?_⟩
  · rw [vau, State.pauseAt_eq]
    exact State.endOrder_ended h prepared (by rw [pausing]) (by rw [pausing]) ..
  · rw [State.pauseAt_eq]
    exact released.endOrder order ..
  · rw [occ, pausing]; rfl
  · rw [vau]; exact rejected

/-- Settles O34: each end by the state in which it ends its order. -/
theorem ordersEndWhole : Obligations.OrdersEndWhole := by
  intro s o h counts ended released
  refine ⟨fun fields => ⟨State.endDone_ended h fields, ?_, ?_, State.endOrder_vau h ..⟩,
    ⟨s.releaseHeldOf .left, s.releaseHeldOf_step .left, State.releaseHeldOf_step _ .right⟩,
    State.endStopped_released h, State.endStopped_ended h, State.endStopped_of_unsettled, rfl, fun _ _ => rfl,
    fun reason entry bound => ?_⟩
  · rw [State.endDone, State.endOrder_occ h]; rfl
  · rw [State.endDone, State.endOrder_occ h]; rfl
  · intro t byHand r rest
    obtain ⟨whole, released', retakes, ⟨m, vau⟩, rejected⟩ := State.pauseAt_spec h reason entry bound
    rw [State.pauseFields_eq] at whole
    simp only [Reason.handStep_iff] at whole
    refine ⟨whole, released', retakes, ?_, fun hand => ?_, fun hand => ?_, fun e x hx => ?_⟩
    · rw [show t.vau = _ from vau]
    · have hand' := (Reason.handStep_iff reason).2 hand
      refine ⟨?_, ?_, ?_⟩
      · rw [show t.vau = _ from vau]; exact if_pos hand'
      · rw [show t.vau = _ from vau]; exact if_pos hand'
      · refine State.Ended.note whole (k := 3) ?_
        rw [if_pos (show 1 ≤ reason.code ∧ reason.code ≤ 7 from hand)]
        simp
    · have hand' : ¬reason.handStep = true := fun k => hand ((Reason.handStep_iff reason).1 k)
      rw [show t.vau = _ from vau]
      exact ⟨if_neg hand', if_neg hand'⟩
    · obtain ⟨y, hy, hr⟩ := rejected e x hx
      have ⟨same, _⟩ := hr
      exact ⟨y, hy, same, fun side => hr.status side⟩

end Sys2Proof.Machine
end

section
/-! SUPPORT. A judgement taken (R39 to R42, R67, R68, R134, R135): one side record changed, the retake decided, and the
number given to the channel's result. -/

namespace Sys2Proof.Machine

/-! ### One side record of the mirror -/

theorem LedgerEntry.setSide_setSide (x : LedgerEntry) (side : Side) (r r' : SideRec) :
    (x.setSide side r).setSide side r' = x.setSide side r' := by
  cases side <;> rfl

/-- Two changes of one side record are one. -/
theorem Vau.mapSide_mapSide (v : Vau) (e : Nat) (side : Side) (f g : SideRec → SideRec) :
    (v.mapSide e side f).mapSide e side g = v.mapSide e side (g ∘ f) := by
  simp only [Vau.mapSide, Vau.mapEntry, List.modify_modify_eq]
  congr 2
  funext x
  simp [LedgerEntry.setSide_setSide, LedgerEntry.sideRec_setSide]

theorem Vau.mapSide_length (v : Vau) (e : Nat) (side : Side) (f : SideRec → SideRec) :
    (v.mapSide e side f).mirror.length = v.mirror.length := List.length_modify ..

/-- The entries of the mirror after a change of one side record. -/
theorem Vau.mapSide_get {v : Vau} {e : Nat} {x : LedgerEntry} (h : v.mirror[e]? = some x) (leaf : Nat) (side : Side)
    (f : SideRec → SideRec) : ∃ y, (v.mapSide leaf side f).mirror[e]? = some y
      ∧ y = { x with verso := y.verso, recto := y.recto }
      ∧ ∀ d, y.sideRec d = if e = leaf ∧ d = side then f (x.sideRec d) else x.sideRec d := by
  simp only [Vau.mapSide, Vau.mapEntry]
  by_cases here : leaf = e
  · refine ⟨x.setSide side (f (x.sideRec side)), by simp [h, here], by cases side <;> rfl, fun d => ?_⟩
    rw [LedgerEntry.sideRec_setSide]
    by_cases hd : d = side
    · rw [if_pos hd, if_pos ⟨here.symm, hd⟩, hd]
    · rw [if_neg hd, if_neg fun k => hd k.2]
  · exact ⟨x, by simp [h, here], rfl, fun d => (if_neg fun k => here k.1.symm).symm⟩

/-! ### The judgements reported (R134) -/

/-- VAU takes the first judgement that the channel has reported. -/
theorem takeJudgement_iff (c : Chan) (l r : List Judgement) (j : Judgement) : takeJudgement c l = some (j, r) ↔
    ∃ a b, l = a ++ j :: b ∧ r = a ++ b ∧ j.chan = c ∧ ∀ x ∈ a, x.chan ≠ c := by
  induction l generalizing r with
  | nil => simp [takeJudgement]
  | cons i l ih =>
    unfold takeJudgement
    split
    · next hi =>
      constructor
      · rintro ⟨⟩
        exact ⟨[], l, rfl, rfl, hi, by simp⟩
      · rintro ⟨_ | ⟨k, a⟩, b, hl, hr, -, none⟩
        · obtain ⟨rfl, rfl⟩ := List.cons.inj hl
          rw [hr]; rfl
        · obtain ⟨rfl, -⟩ := List.cons.inj hl
          exact absurd hi (none _ List.mem_cons_self)
    · next hi =>
      constructor
      · intro h
        obtain ⟨⟨k, q⟩, hq, heq⟩ := Option.map_eq_some_iff.1 h
        obtain ⟨rfl, rfl⟩ := Prod.mk.inj heq
        obtain ⟨a, b, rfl, rfl, hj, none⟩ := (ih q).1 hq
        exact ⟨i :: a, b, rfl, rfl, hj, List.forall_mem_cons.2 ⟨hi, none⟩⟩
      · rintro ⟨_ | ⟨k, a⟩, b, hl, hr, hj, none⟩
        · obtain ⟨rfl, -⟩ := List.cons.inj hl
          exact absurd hj hi
        · obtain ⟨rfl, rfl⟩ := List.cons.inj hl
          obtain ⟨-, none⟩ := List.forall_mem_cons.1 none
          rw [(ih (a ++ b)).2 ⟨a, b, rfl, rfl, hj, none⟩, hr]
          rfl

/-! ### The retake decided at OCC (R67, R68, R71) -/

theorem Occ.awaits_iff (o : Occ) (j : Judgement) :
    o.awaits j = true ↔ o.awaiting.has j.chan = true ∧ j.late = false := by
  simp [Occ.awaits]

/-- OCC's part of a judgement that it does not await, and of one that it does. -/
theorem Occ.judgementSeen_of_not {o : Occ} {j : Judgement} (h : o.awaiting.has j.chan = false ∨ j.late = true) :
    o.judgementSeen j = o := by
  unfold Occ.judgementSeen
  rw [if_neg]
  rw [Occ.awaits_iff]
  rintro ⟨awaited, early⟩
  obtain h | h := h <;> simp_all

theorem Occ.judgementSeen_of_awaits {o : Occ} {j : Judgement} (h : o.awaiting.has j.chan = true)
    (early : j.late = false) :
    o.judgementSeen j = { o with
      awaiting := o.awaiting.set j.chan false
      outcome := if isRetake o.order = true then some j.outcome.code else o.outcome } := by
  unfold Occ.judgementSeen
  rw [if_pos ((o.awaits_iff j).2 ⟨h, early⟩)]
  obtain _ | ⟨_, _ | _ | _ | _⟩ := o.order <;> rfl

theorem State.retakeFollows_eq (s : State) (j : Judgement) : s.retakeFollows j
    = (s.occ.awaits j && !isRetake s.occ.order && s.occ.autoCount j.leaf j.side < s.profile.autoLimit
        && s.occ.pendingPause == none && !j.madeFaulted) := by
  unfold State.retakeFollows isRetake
  obtain _ | ⟨_, _ | _ | _ | _⟩ := s.occ.order <;> rfl

theorem State.retakeFollows_iff (s : State) (j : Judgement) : s.retakeFollows j = true ↔
    s.occ.awaiting.has j.chan = true ∧ j.late = false ∧ isRetake s.occ.order = false
      ∧ s.occ.autoCount j.leaf j.side < s.profile.autoLimit ∧ s.occ.pendingPause = none ∧ j.madeFaulted = false := by
  simp only [State.retakeFollows_eq, Bool.and_eq_true, Occ.awaits_iff, Bool.not_eq_true', decide_eq_true_eq, beq_iff_eq,
    and_assoc]

theorem Occ.autoCount_countAuto {o : Occ} {e leaf : Nat} (h : e < o.auto.length) (d side : Side) :
    (o.countAuto leaf side).autoCount e d = o.autoCount e d + if e = leaf ∧ d = side then 1 else 0 := by
  by_cases here : leaf = e
  · subst here
    cases side <;> cases d <;> simp [Occ.autoCount, Occ.countAuto, addDose, h]
  · have other : ¬(e = leaf ∧ d = side) := fun k => here k.1.symm
    cases d <;> simp [Occ.autoCount, Occ.countAuto, addDose, here, other]

/-- After the last awaited judgement OCC goes on with the phase, and otherwise it stays as it is (R67). -/
theorem State.afterJudged_of_last {s : State} {x : Exposure} (h : s.occ.work = .judging x)
    (last : s.occ.awaiting = ⟨false, false⟩) : s.afterJudged = s.goOn x.panel := by
  unfold State.afterJudged
  rw [h, last]
  rfl

theorem State.afterJudged_of_not {s : State}
    (h : (∀ x, s.occ.work ≠ .judging x) ∨ s.occ.awaiting ≠ ⟨false, false⟩) : s.afterJudged = s := by
  unfold State.afterJudged
  split
  · next x hx =>
    obtain h | h := h
    · exact absurd hx (h x)
    · rw [if_neg]
      rwa [ChanSet.isEmpty_iff]
  · rfl

/-! ### The number of a result (R40, R135) -/

/-- The result of a channel's take awaits its accepted-frame number. -/
def Cch.AwaitsNumber (x : Cch) (r : ResultJob) (k : TakeRec) : Prop :=
  x.result = some r ∧ r.awaitsNumber = true ∧ x.take = some k

theorem State.descAddress_setCch (s : State) (c : Chan) (x : Cch) : (s.setCch c x).descAddress = s.descAddress := rfl

theorem State.numberResult_of_awaits {s : State} {c : Chan} {r : ResultJob} {k : TakeRec}
    (h : (s.cch.get c).AwaitsNumber r k) (n : Nat) :
    let numbered : Result := { r.result with number := n }
    s.numberResult c n = { s with
      cch := s.cch.set c { s.cch.get c with result := some { r with awaitsNumber := false, result := numbered } }
      host := s.host.issued (.result c) [(s.descAddress c k.desc.bank k.desc.index + 12, resultBytes numbered)] } := by
  obtain ⟨hr, awaits, hk⟩ := h
  unfold State.numberResult
  simp only [hr, hk, awaits, if_true, State.issueResult, State.issue_eq, State.descAddress_setCch]
  rfl

theorem State.numberResult_of_not {s : State} {c : Chan} (h : ∀ r k, ¬(s.cch.get c).AwaitsNumber r k) (n : Nat) :
    s.numberResult c n = s := by
  unfold State.numberResult
  dsimp only
  split
  · next r k hr hk => exact if_neg fun awaits => h r k ⟨hr, awaits, hk⟩
  · rfl

/-! ### A judgement applied (R39 to R42) -/

/-- An acceptance with a number left: the panel recorded, and the status by R41 over the list as it then stands. -/
theorem SideRec.accept_spec (r : SideRec) (panel n check : Nat) :
    let y := r.accept panel n check
    y.takes = r.takes ∧ y.dose = r.dose ∧ y.panels = r.panels.set (panel - 1) ⟨n, check⟩
      ∧ y.status = if r.status ≠ .exempt ∧ ∀ p ∈ y.panels, p.number ≠ 0 then .captured else r.status := by
  dsimp only
  unfold SideRec.accept
  simp only [SideRec.complete_iff]
  split <;> exact ⟨rfl, rfl, rfl, rfl⟩

/-- A judgement makes of its side record: one take more, and the acceptance with its number, the rejection that a retake
follows, or the rejection with none. -/
def State.judgedSide (s : State) (j : Judgement) (r : SideRec) : SideRec :=
  if j.outcome = .accepted ∧ s.vau.nextFrame ≠ 0 then r.countTake.accept j.panel s.vau.nextFrame j.check
  else if j.outcome ≠ .accepted ∧ s.retakeFollows j = true then r.countTake
  else { r.countTake with status := r.status.reject }

/-- The account after a judgement (R39 to R42). -/
def State.judgedVau (s : State) (j : Judgement) : Vau :=
  { s.vau.mapSide j.leaf j.side (s.judgedSide j) with
    nextFrame := if j.outcome = .accepted ∧ s.vau.nextFrame ≠ 0 then nextNumber s.vau.nextFrame else s.vau.nextFrame }

/-- The state after a judgement's change of the account, with the writes it issues (R36, R37). -/
def State.judged (s : State) (j : Judgement) : State :=
  { s with
    vau := s.judgedVau j
    host := s.host.issued .vau (ledgerWrites s.exp.base s.vau (s.judgedVau j) false) }

theorem State.judgedSide_spec (s : State) (j : Judgement) (r : SideRec) :
    let y := s.judgedSide j r
    let again := j.outcome ≠ .accepted ∧ s.retakeFollows j = true
    let numbered := j.outcome = .accepted ∧ s.vau.nextFrame ≠ 0
    y.takes = min 255 (r.takes + 1) ∧ y.dose = r.dose
      ∧ (numbered → y.panels = r.panels.set (j.panel - 1) ⟨s.vau.nextFrame, j.check⟩
          ∧ y.status = if r.status ≠ .exempt ∧ ∀ p ∈ y.panels, p.number ≠ 0 then .captured else r.status)
      ∧ (¬numbered → y.panels = r.panels)
      ∧ (again → y.status = r.status)
      ∧ (¬numbered → ¬again → y.status
          = if r.status = .pending ∨ r.status = .skipped then .retakeDue else r.status) := by
  intro y again numbered
  by_cases hn : numbered
  · have accepted : y = r.countTake.accept j.panel s.vau.nextFrame j.check := if_pos hn
    obtain ⟨takes, dose, panels, status⟩ := r.countTake.accept_spec j.panel s.vau.nextFrame j.check
    rw [← accepted] at takes dose panels status
    exact ⟨takes, dose, fun _ => ⟨panels, status⟩, fun k => absurd hn k, fun k => absurd hn.1 k.1, fun k => absurd hn k⟩
  by_cases ha : again
  · have followed : y = r.countTake := (if_neg hn).trans (if_pos ha)
    rw [followed]
    exact ⟨rfl, rfl, fun k => absurd k hn, fun _ => rfl, fun _ => rfl, fun _ k => absurd ha k⟩
  · have rejected : y = { r.countTake with status := r.status.reject } := (if_neg hn).trans (if_neg ha)
    rw [rejected]
    exact ⟨rfl, rfl, fun k => absurd k hn, fun _ => rfl, fun k => absurd k ha, fun _ _ => r.status.reject_eq⟩

theorem State.judged_of_change {s : State} {j : Judgement} {f : Vau → Vau} (h : f s.vau = s.judgedVau j) :
    s.changeAccount f = s.judged j := by
  rw [State.changeAccount_writes _ _ _ (by rw [h]; exact Vau.mapSide_length ..), h]
  rfl

/-- The change of an account made by a rejection that no retake follows (R39, R42). -/
theorem State.judgedVau_of_reject {s : State} {j : Judgement} (hn : ¬(j.outcome = .accepted ∧ s.vau.nextFrame ≠ 0))
    (ha : ¬(j.outcome ≠ .accepted ∧ s.retakeFollows j = true)) :
    (s.vau.mapSide j.leaf j.side .countTake).reject j.leaf j.side = s.judgedVau j := by
  have side : s.judgedSide j = (fun r => { r with status := r.status.reject }) ∘ SideRec.countTake := by
    funext r
    exact (if_neg hn).trans (if_neg ha)
  rw [State.judgedVau, if_neg hn, side, Vau.reject, Vau.mapSide_mapSide]
  rfl

/-- A judgement applied: the account changed, and then the number given to the channel's result or the retake listed
(R40, R68, R134, R135). -/
theorem State.applyJudgement_eq (s : State) (j : Judgement) : s.applyJudgement j =
    if j.outcome = .accepted then ((s.judged j).numberResult j.chan s.vau.nextFrame).clearLost j.chan
    else if s.retakeFollows j then (s.judged j).setOcc { s.occ.countAuto j.leaf j.side with
      retakes := s.occ.retakes ++ [⟨j.leaf, j.side, j.panel⟩] }
    else s.judged j := by
  unfold State.applyJudgement
  dsimp only
  by_cases ho : j.outcome = .accepted
  · rw [if_pos ho, if_pos ho]
    by_cases h0 : s.vau.nextFrame = 0
    · rw [if_pos h0, State.judged_of_change
        (State.judgedVau_of_reject (fun k => k.2 h0) (fun k => k.1 ho)), h0]
    · rw [if_neg h0, State.judged_of_change]
      have side : s.judgedSide j = (fun r => r.accept j.panel s.vau.nextFrame j.check) ∘ SideRec.countTake := by
        funext r
        exact if_pos ⟨ho, h0⟩
      rw [State.judgedVau, if_pos ⟨ho, h0⟩, side, Vau.mapSide_mapSide]
  · rw [if_neg ho, if_neg ho]
    by_cases hr : s.retakeFollows j = true
    · rw [if_pos hr, if_pos hr, State.judged_of_change]
      · rfl
      · have side : s.judgedSide j = SideRec.countTake := by
          funext r
          exact (if_neg fun k => ho k.1).trans (if_pos ⟨ho, hr⟩)
        rw [State.judgedVau, if_neg fun k => ho k.1, side]
        rfl
    · rw [if_neg hr, if_neg hr, State.judged_of_change
        (State.judgedVau_of_reject (fun k => ho k.1) (fun k => hr k.2))]

theorem State.numberResult_eq (s : State) (c : Chan) (n : Nat) :
    s.numberResult c n = { s with cch := (s.numberResult c n).cch, host := (s.numberResult c n).host } := by
  unfold State.numberResult
  dsimp only
  split
  · split <;> rfl
  · rfl

section Judged
variable {s : State} {j : Judgement}

theorem State.applyJudgement_of_accepted (h : j.outcome = .accepted) :
    s.applyJudgement j = ((s.judged j).numberResult j.chan s.vau.nextFrame).clearLost j.chan := by
  rw [State.applyJudgement_eq, if_pos h]

theorem State.applyJudgement_of_again (h : j.outcome ≠ .accepted) (again : s.retakeFollows j = true) :
    s.applyJudgement j = (s.judged j).setOcc { s.occ.countAuto j.leaf j.side with
      retakes := s.occ.retakes ++ [⟨j.leaf, j.side, j.panel⟩] } := by
  rw [State.applyJudgement_eq, if_neg h, if_pos again]

theorem State.applyJudgement_of_rejected (h : j.outcome ≠ .accepted) (last : ¬s.retakeFollows j = true) :
    s.applyJudgement j = s.judged j := by
  rw [State.applyJudgement_eq, if_neg h, if_neg last]

/-- What a judgement leaves as it is. -/
theorem State.applyJudgement_frame (s : State) (j : Judgement) : s.applyJudgement j = { s with
    vau := s.judgedVau j
    occ := { s.occ with auto := (s.applyJudgement j).occ.auto, retakes := (s.applyJudgement j).occ.retakes }
    cch := (s.applyJudgement j).cch, host := (s.applyJudgement j).host } := by
  by_cases ho : j.outcome = .accepted
  · rw [State.applyJudgement_of_accepted ho, State.numberResult_eq]
    rfl
  by_cases hr : s.retakeFollows j = true
  · rw [State.applyJudgement_of_again ho hr]
    rfl
  · rw [State.applyJudgement_of_rejected ho hr]
    rfl

theorem State.applyJudgement_vau (s : State) (j : Judgement) : (s.applyJudgement j).vau = s.judgedVau j := by
  rw [State.applyJudgement_frame]

theorem State.applyJudgement_occ (h : ¬(j.outcome ≠ .accepted ∧ s.retakeFollows j = true)) :
    (s.applyJudgement j).occ = s.occ := by
  by_cases ho : j.outcome = .accepted
  · rw [State.applyJudgement_of_accepted ho, State.numberResult_eq]
    rfl
  · rw [State.applyJudgement_of_rejected ho fun k => h ⟨ho, k⟩]
    rfl

/-- The result of an accepted take that awaits its number is issued with it, and the run of LOST takes ends (R134,
R135). -/
theorem State.applyJudgement_numbers (h : j.outcome = .accepted) {r : ResultJob} {k : TakeRec}
    (awaits : (s.cch.get j.chan).AwaitsNumber r k) :
    let numbered : Result := { r.result with number := s.vau.nextFrame }
    (s.applyJudgement j).cch = s.cch.set j.chan { s.cch.get j.chan with
        result := some { r with awaitsNumber := false, result := numbered }, lost := 0 }
      ∧ (s.applyJudgement j).host = (s.judged j).host.issued (.result j.chan)
          [(s.descAddress j.chan k.desc.bank k.desc.index + 12, resultBytes numbered)] := by
  have numbers := State.numberResult_of_awaits (s := s.judged j) awaits s.vau.nextFrame
  rw [State.applyJudgement_of_accepted h, numbers]
  exact ⟨by simp [State.clearLost, State.judged], rfl⟩

theorem State.applyJudgement_unnumbered (h : j.outcome = .accepted)
    (none : ∀ r k, ¬(s.cch.get j.chan).AwaitsNumber r k) :
    (s.applyJudgement j).cch = s.cch.set j.chan { s.cch.get j.chan with lost := 0 }
      ∧ (s.applyJudgement j).host = (s.judged j).host := by
  rw [State.applyJudgement_of_accepted h, State.numberResult_of_not (s := s.judged j) none]
  exact ⟨rfl, rfl⟩

theorem State.applyJudgement_links (h : j.outcome ≠ .accepted) :
    (s.applyJudgement j).cch = s.cch ∧ (s.applyJudgement j).host = (s.judged j).host := by
  by_cases hr : s.retakeFollows j = true
  · rw [State.applyJudgement_of_again h hr]
    exact ⟨rfl, rfl⟩
  · rw [State.applyJudgement_of_rejected h hr]
    exact ⟨rfl, rfl⟩

end Judged

theorem execJudgementTaken_of_judgement {c : Chan} {s : State} {j : Judgement} {rest : List Judgement}
    (h : takeJudgement c s.vau.judgements = some (j, rest)) :
    let u := State.applyJudgement { s with vau := { s.vau with judgements := rest } } j
    exec (.judgementTaken c) s = .next (State.pollWait (State.afterJudged { u with occ := u.occ.judgementSeen j })) := by
  show execJudgementTaken c s = _
  simp only [execJudgementTaken, h]
  rfl

/-- Settles O39: the account by `judgedVau`, the retake by `retakeFollows`, the result by whether it awaits its number. -/
theorem judgementsReachTheLedger : Obligations.JudgementsReachTheLedger := by
  refine ⟨fun c j rest s hj => ?_, takeJudgement_iff,
    fun o j => ⟨Occ.judgementSeen_of_not, Occ.judgementSeen_of_awaits⟩,
    fun s => ⟨fun x => State.afterJudged_of_last, State.afterJudged_of_not⟩⟩
  obtain ⟨-, -, -, -, rfl, -⟩ := (takeJudgement_iff c s.vau.judgements rest j).1 hj
  intro u again numbered
  let s₀ : State := { s with vau := { s.vau with judgements := rest } }
  have vau : u.vau = s₀.judgedVau j := s₀.applyJudgement_vau j
  have hagain : again ↔ j.outcome ≠ .accepted ∧ s₀.retakeFollows j = true := by
    rw [State.retakeFollows_iff]; exact Iff.rfl
  refine ⟨execJudgementTaken_of_judgement hj, ?_, fun ha => ?_, fun ha => State.applyJudgement_occ (hagain.not.1 ha),
    fun hn => ?_, fun hn => ?_, ?_, fun e x hx => ?_⟩
  · rw [show u.vau = _ from vau]
    exact s₀.applyJudgement_frame j
  · obtain ⟨ho, hr⟩ := hagain.1 ha
    have occ : u.occ = { s.occ.countAuto j.leaf j.side with
        retakes := s.occ.retakes ++ [⟨j.leaf, j.side, j.panel⟩] } := by
      rw [show u = _ from State.applyJudgement_of_again ho hr]; rfl
    rw [occ]
    exact ⟨rfl, fun e side he => Occ.autoCount_countAuto he side j.side⟩
  · rw [vau]
    exact (if_pos hn).trans (if_neg hn.2)
  · rw [vau]
    exact if_neg hn
  · intro h waits
    have host : (s₀.judged j).host = h := by
      show _ = s.host.issued .vau (ledgerWrites s.exp.base s.vau u.vau false)
      rw [vau]; rfl
    refine ⟨fun r k ⟨ho, awaits⟩ => ?_, fun none => ?_⟩
    · rw [← host]
      exact State.applyJudgement_numbers (s := s₀) ho awaits
    · rw [← host]
      by_cases ho : j.outcome = .accepted
      · obtain ⟨cch, issued⟩ := State.applyJudgement_unnumbered (s := s₀) ho fun r k awaits => none r k ⟨ho, awaits⟩
        exact ⟨issued, fun _ => cch, fun k => absurd ho k⟩
      · obtain ⟨cch, issued⟩ := State.applyJudgement_links (s := s₀) ho
        exact ⟨issued, fun k => absurd k ho, fun _ => cch⟩
  · obtain ⟨y, hy, same, sides⟩ := Vau.mapSide_get (v := s₀.vau) hx j.leaf j.side (s₀.judgedSide j)
    refine ⟨y, by rw [vau]; exact hy, same, fun side other => (sides side).trans (if_neg other), fun he => ?_⟩
    rw [sides j.side, if_pos ⟨he, rfl⟩]
    obtain ⟨takes, dose, accepted, panels, followed, rejected⟩ := s₀.judgedSide_spec j (x.sideRec j.side)
    exact ⟨takes, dose, accepted, panels, fun ha => followed (hagain.1 ha),
      fun hn ha => rejected hn (hagain.not.1 ha)⟩

end Sys2Proof.Machine
end

section
/-! SUPPORT. HAND DONE (R48, R49, R70): the refusals in their order, and the end of the hand step. -/

namespace Sys2Proof.Machine

/-! ### The opening record after the hand step (R49, R70) -/

/-- A hand step done changes the opening record and the mirror alone. -/
theorem Vau.handStepDone_frame (v : Vau) (step : HandStep) (c : Nat) : v.handStepDone step c = { v with
    mirror := (v.handStepDone step c).mirror, cursor := (v.handStepDone step c).cursor
    unfolded := (v.handStepDone step c).unfolded, nextPanel := (v.handStepDone step c).nextPanel } := by
  unfold Vau.handStepDone
  cases step.reason <;> rfl

theorem Vau.handStepDone_turning {step : HandStep} (h : step.reason.foldout = false) (v : Vau) (c : Nat) :
    v.handStepDone step c = (v.moveCursor c).setUncertain step.entry false := by
  unfold Vau.handStepDone
  cases hr : step.reason with
  | foldoutUnfold | foldoutPanel | foldoutRefold => rw [hr] at h; cases h
  | _ => rfl

theorem Vau.handStepDone_foldout {step : HandStep} (h : step.reason.foldout = true) (v : Vau) (c : Nat) :
    (v.handStepDone step c).cursor = v.cursor ∧ (v.handStepDone step c).mirror = v.mirror := by
  unfold Vau.handStepDone
  cases hr : step.reason with
  | foldoutUnfold | foldoutPanel | foldoutRefold => exact ⟨rfl, rfl⟩
  | _ => rw [hr] at h; cases h

theorem Vau.handStepDone_unfold {step : HandStep} (h : step.reason = .foldoutUnfold) (v : Vau) (c : Nat) :
    v.handStepDone step c = { v with unfolded := true, nextPanel := 1 } := by rw [Vau.handStepDone, h]

theorem Vau.handStepDone_panel {step : HandStep} (h : step.reason = .foldoutPanel) (v : Vau) (c : Nat) :
    v.handStepDone step c = { v with unfolded := true, nextPanel := v.nextPanel + 1 } := by rw [Vau.handStepDone, h]

theorem Vau.handStepDone_refold {step : HandStep} (h : step.reason = .foldoutRefold) (v : Vau) (c : Nat) :
    v.handStepDone step c = { v with unfolded := false, nextPanel := 1 } := by rw [Vau.handStepDone, h]

theorem Vau.handStepDone_length (v : Vau) (step : HandStep) (c : Nat) :
    (v.handStepDone step c).mirror.length = v.mirror.length := by
  cases h : step.reason.foldout with
  | false =>
    rw [Vau.handStepDone_turning h]
    exact (List.length_modify ..).trans (skipMark_length ..)
  | true =>
    obtain ⟨-, mirror⟩ := v.handStepDone_foldout h c
    rw [mirror]

/-! ### The answers of HAND DONE (R48, R49) -/

theorem State.handDone_of_handWait {s : State} {step : HandStep} (hv : s.vau.vol = .handWait)
    (hs : s.vau.step = some step) (i : Fin 16) (r c : Nat) : s.handDone i r c =
      if r ≠ step.reason.code then s.answer i .wrongStep [⟨68, 1, step.reason.code⟩]
      else if !step.reason.foldout && !inOpeningRange s.vau.plan c then
        s.answer i .badCursor [⟨70, 2, lastOpening s.vau.plan⟩]
      else s.acceptHandDone i step c := by
  simp only [State.handDone, hv, hs]

/-- An accepted HAND DONE, whole: the writes of the change issued, and the banks and the notes as the entry into READY
leaves them (R36, R49, R150). -/
theorem State.acceptHandDone_eq (s : State) (i : Fin 16) (step : HandStep) (c : Nat) :
    let done := { s.vau.handStepDone step c with step := none }
    let host := s.host.issued .vau (ledgerWrites s.exp.base s.vau done true)
    s.acceptHandDone i step c = { s with
      exp := { s.exp with note := (s.enterRest .ready).exp.note }
      vau := { done with vol := .ready, handJobs := s.vau.handJobs ++ [⟨i, host.serial⟩] }
      occ := { s.occ with foldoutDone := step.reason == .foldoutRefold }
      fbk := (s.enterRest .ready).fbk, host := host } := by
  intro done host
  have changed : s.changeAccount (fun v => { v.handStepDone step c with step := none }) true
      = { s with vau := done, host := host } := State.changeAccount_writes s _ true (Vau.handStepDone_length ..)
  have jobs : done.handJobs = s.vau.handJobs := by
    show (s.vau.handStepDone step c).handJobs = _
    rw [Vau.handStepDone_frame]
  unfold State.acceptHandDone
  dsimp only
  rw [changed]
  obtain ⟨banks, notes⟩ := State.enterRest_banks s { s with
      vau := { done with handJobs := done.handJobs ++ [⟨i, host.serial⟩] }
      occ := { s.occ with foldoutDone := step.reason == .foldoutRefold }, host := host } .ready rfl rfl
  rw [State.enterRest_eq, banks, notes, jobs]

/-- HAND DONE: VAU takes the order from its queue (R48). -/
theorem execHandDone_of_order {s t : State} {i : Fin 16} {r c : Nat}
    (h : s.nextOrder .vau = some (⟨i, .handDone r c⟩, t)) : exec .handDone s = .next (t.handDone i r c) := by
  show execHandDone s = _
  simp only [execHandDone, h]

/-- The writes of a HAND DONE complete, and it is answered DONE with the cursor in force (R49, log 27). -/
theorem execHandDoneWritesComplete_of_job {s : State} {j : VauJob} {rest : List VauJob}
    (h : s.vau.handJobs = j :: rest) : exec .handDoneWritesComplete s = .next { s with
      host := (s.landVau j.ticket).host.answered s.exp.base j.slot .done [⟨70, 2, s.vau.cursor⟩]
      vau := { s.vau with handJobs := rest } } := by
  show execHandDoneWritesComplete s = _
  simp only [execHandDoneWritesComplete, h]
  rfl

/-- Settles O29: each refusal in its order, and the accepted one by what `Vau.handStepDone` makes of the account. -/
theorem handDoneEndsTheHandStep : Obligations.HandDoneEndsTheHandStep := by
  refine ⟨fun s s' i r c hq => ?_, fun s j rest h =>
    ⟨_, State.land_completed s _, execHandDoneWritesComplete_of_job h⟩⟩
  rw [execHandDone_of_order hq]
  have queue := State.nextOrder_eq hq
  have hv : s'.vau = s.vau := by rw [queue]
  have hbase : s'.exp.base = s.exp.base := by rw [queue]
  have hhost : s'.host = s.host := by rw [queue]
  refine ⟨fun h => ?_, fun h => ?_, fun step h hs => ?_⟩
  · obtain h | h | h := h <;> simp only [State.handDone, hv, h]
  · obtain h | h := h <;> simp only [State.handDone, hv, h]
  rw [State.handDone_of_handWait (by rwa [hv]) (by rwa [hv]), hv]
  refine ⟨fun wrong => by rw [if_pos wrong], fun right turning outside => ?_, fun right inside => ?_⟩
  · rw [if_neg (not_not.2 right), if_pos (by rw [turning, outside]; rfl)]
  have passes : ¬(!step.reason.foldout && !inOpeningRange s.vau.plan c) = true := by
    obtain h | h := inside <;> simp [h]
  rw [if_neg (not_not.2 right), if_neg passes, State.acceptHandDone_eq, hv, hbase, hhost]
  refine ⟨_, rfl, rfl, rfl, rfl, rfl, ?_, rfl, fun turning => ?_,
    fun foldout => s.vau.handStepDone_foldout foldout c, fun unfold => ?_, fun panel => ?_, fun refold => ?_⟩
  · dsimp only
    rw [Vau.handStepDone_frame]
  · dsimp only
    rw [Vau.handStepDone_turning turning]
    exact ⟨rfl, rfl, rfl, rfl⟩
  · dsimp only
    rw [Vau.handStepDone_unfold unfold]
    exact ⟨rfl, rfl⟩
  · dsimp only
    rw [Vau.handStepDone_panel panel]
    exact ⟨rfl, rfl⟩
  · dsimp only
    rw [Vau.handStepDone_refold refold]
    exact ⟨rfl, rfl⟩

end Sys2Proof.Machine
end

section
/-! SUPPORT. CLOSE VOLUME (R50 to R55): the refusals in their order, the steps of CLOSING, the closing sum, and the
bytes of the close record. -/

namespace Sys2Proof.Machine

/-! ### The order (R50) -/

/-- CLOSE VOLUME of a volume at rest: the takes, then the sides, and then CLOSING begins (R50, R51). -/
theorem State.closeVolume_of_rest {s : State} (h : s.vau.vol = .ready ∨ s.vau.vol = .handWait) (i : Fin 16)
    (force : Bool) : s.closeVolume i force =
      if s.closeBusy then s.answer i .busy
      else if s.vau.incomplete ≠ 0 ∧ force = false then s.answer i .incomplete [⟨72, 2, s.vau.incomplete⟩]
      else { s with
        host := s.host.issued .vau [(s.exp.base.toNat * 4096 + 0x1000 + 38, [0])]
        vau := { s.vau with
          vol := .closing, step := none
          closeJob := some ⟨i, 1, s.vau.incomplete == 0, s.host.serial + 1⟩ } } := by
  unfold State.closeVolume
  obtain h | h := h <;> rw [h] <;> rfl

/-- CLOSE VOLUME finds a take outstanding, or a judgement of one not yet taken (R50, log 12). -/
theorem State.closeBusy_takes (s : State) : s.closeBusy = true ↔ ∃ c, (s.cch.get c).state = .armed
    ∨ (s.cch.get c).state = .exposed ∨ (s.cch.get c).state = .receiving ∨ ∃ j ∈ s.vau.judgements, j.chan = c := by
  simp only [State.closeBusy_iff, State.takeOutstanding_iff]

/-- CLOSE VOLUME: VAU takes the order from its queue (R50). -/
theorem execCloseVolume_of_order {s t : State} {i : Fin 16} {force : Bool}
    (h : s.nextOrder .vau = some (⟨i, .closeVolume force⟩, t)) :
    exec .closeVolume s = .next (t.closeVolume i force) := by
  show execCloseVolume s = _
  simp only [execCloseVolume, h]

/-! ### The steps of CLOSING (R51) -/

section Closing
variable {s : State} {j : CloseJob} (h : s.vau.closeJob = some j)
include h

theorem execClosingWriteComplete_of_held (held : s.closingHeld j = true) :
    exec .closingWriteComplete s = .next s := by
  show execClosingWriteComplete s = _
  simp only [execClosingWriteComplete, h, held, if_true]

/-- The writes of step 1 complete, and the header is written (R51). -/
theorem execClosingWriteComplete_of_one (step : j.step = 1) : exec .closingWriteComplete s = .next
    ((s.landVau j.ticket).writeHeader.closingStep j 2) := by
  show execClosingWriteComplete s = _
  simp only [execClosingWriteComplete, h, State.closingHeld, step]
  rfl

/-- The header complete, and every ledger write before it, the fields of the close record are written (R51). -/
theorem execClosingWriteComplete_of_two (step : j.step = 2) (amends : s.vau.amendJobs = [])
    (hands : s.vau.handJobs = []) : exec .closingWriteComplete s = .next
      (((s.landVau j.ticket).writeCloseFields (s.closeFields j.complete)).closingStep j 3) := by
  show execClosingWriteComplete s = _
  simp only [execClosingWriteComplete, h, State.closingHeld, step, amends, hands]
  rfl

/-- The close record complete, the valid flag is written (R51, R55). -/
theorem execClosingWriteComplete_of_three (step : j.step = 3) : exec .closingWriteComplete s = .next
    (((s.landVau j.ticket).writeCloseValid 1).closingStep j 4) := by
  show execClosingWriteComplete s = _
  simp only [execClosingWriteComplete, h, State.closingHeld, step]
  rfl

/-- The flag complete, the volume is closed (R51). -/
theorem execClosingWriteComplete_of_four (step : j.step = 4) (free : s.closingHeld j = false) :
    exec .closingWriteComplete s = .next ((s.landVau j.ticket).endClosing j) := by
  show execClosingWriteComplete s = _
  simp only [execClosingWriteComplete, h, free, step]
  rfl

end Closing

/-- Writes of VAU issued by a step of CLOSING, and the job that waits for them (R51). -/
theorem State.closingStep_eq {s u : State} {ws : List (Nat × List Byte)}
    (hu : u = { s with host := s.host.issued .vau ws }) (j : CloseJob) (k : Nat) : u.closingStep j k = { s with
      host := s.host.issued .vau ws
      vau := { s.vau with closeJob := some { j with step := k, ticket := s.host.serial + ws.length } } } := by
  rw [hu]; rfl

theorem State.writeCloseFields_eq (s : State) (f : CloseFields) : s.writeCloseFields f = { s with
    host := s.host.issued .vau [(s.exp.base.toNat * 4096 + 0x1000, slice (closeBytes s.vau f) 0 38),
      (s.exp.base.toNat * 4096 + 0x1000 + 39, slice (closeBytes s.vau f) 39 256)] } := by
  simp only [State.writeCloseFields, State.issue_eq, HostSide.issued_append, State.area, closeOffset,
    List.cons_append, List.nil_append]

theorem State.writeCloseValid_eq (s : State) (n : Nat) : s.writeCloseValid n = { s with
    host := s.host.issued .vau [(s.exp.base.toNat * 4096 + 0x1000 + 38, leBytes n 1)] } := rfl

/-- The end of CLOSING, whole (R51, R99, R150). -/
theorem State.endClosing_eq (s : State) (j : CloseJob) : s.endClosing j = { s with
    exp := { s.exp with note := (s.enterRest .noVolume).exp.note }
    vau := { Vau.reset with
      openJob := s.vau.openJob, openWaiting := s.vau.openWaiting, judgements := s.vau.judgements }
    ldu := { s.ldu with sideDose := [], volDose := 0 }
    fbk := (s.enterRest .noVolume).fbk
    host := s.host.answered s.exp.base j.slot .done
      [⟨68, 1, if j.complete then 1 else 2⟩, ⟨72, 4, s.vau.closingSum⟩] } := by
  unfold State.endClosing
  dsimp only
  obtain ⟨banks, notes⟩ := State.enterRest_banks s { s with
    vau := { Vau.reset with
      vol := s.vau.vol, openJob := s.vau.openJob, openWaiting := s.vau.openWaiting, judgements := s.vau.judgements }
    ldu := { s.ldu with sideDose := [], volDose := 0 } } .noVolume rfl rfl
  rw [State.enterRest_eq, banks, notes]
  rfl

/-! ### The sides of the account (R50, R53) -/

theorem sidesOf_cons (x : LedgerEntry) (l : List LedgerEntry) : sidesOf (x :: l) = x.verso :: x.recto :: sidesOf l := rfl

theorem sidesOf_length (l : List LedgerEntry) : (sidesOf l).length = 2 * l.length := by
  induction l with
  | nil => rfl
  | cons x l ih => rw [sidesOf_cons, List.length_cons, List.length_cons, List.length_cons, ih]; omega

/-- The sides stand in plan order, verso before recto (R53). -/
theorem sidesOf_get {l : List LedgerEntry} {e : Nat} {x : LedgerEntry} (h : l[e]? = some x) :
    (sidesOf l)[2 * e]? = some x.verso ∧ (sidesOf l)[2 * e + 1]? = some x.recto := by
  induction l generalizing e with
  | nil => cases h
  | cons y l ih =>
    rw [sidesOf_cons]
    cases e with
    | zero =>
      obtain rfl := Option.some.inj h
      exact ⟨rfl, rfl⟩
    | succ e => exact ih h

/-- One for a side neither CAPTURED nor EXEMPT (R50). -/
def SideRec.openCount (r : SideRec) : Nat := if r.status = .captured ∨ r.status = .exempt then 0 else 1

theorem SideRec.filter_open (r : SideRec) (l : List SideRec) :
    ((r :: l).filter (fun r => r.status != .captured && r.status != .exempt)).length
      = r.openCount + (l.filter (fun r => r.status != .captured && r.status != .exempt)).length := by
  rw [List.filter_cons, SideRec.openCount]
  cases r.status <;> simp [Nat.add_comm]

theorem Vau.incomplete_eq (v : Vau) :
    v.incomplete = (v.mirror.map (fun x => x.verso.openCount + x.recto.openCount)).sum := by
  unfold Vau.incomplete
  induction v.mirror with
  | nil => rfl
  | cons x l ih =>
    rw [sidesOf_cons, SideRec.filter_open, SideRec.filter_open, ih, List.map_cons, List.sum_cons, Nat.add_assoc]

/-! ### The CRC (R54) -/

theorem crcShift_eq (w : Word32) : crcShift w = (w >>> 1) ^^^ (if w.getLsbD 0 = true then 0xEDB88320 else 0) := by
  unfold crcShift
  split
  · rfl
  · exact (BitVec.xor_zero).symm

theorem crcByte_eq (r : Word32) (b : Byte) : crcByte r b
    = (List.range 8).foldl (fun (w : Word32) _ => (w >>> 1) ^^^ (if w.getLsbD 0 = true then 0xEDB88320 else 0))
      (r ^^^ BitVec.ofNat 32 b.toNat) := by
  have low : b.zeroExtend 32 = BitVec.ofNat 32 b.toNat := BitVec.eq_of_toNat_eq (by simp)
  simp only [← crcShift_eq, ← low]
  rfl

/-! ### The close record (Table 11-11) -/

theorem overlay_drop (b : List Byte) {new : List Byte} {n : Nat} (h : new.length = n) :
    (overlay b 0 new).drop n = b.drop n := by
  subst h
  simp [overlay]

theorem closeBytes_text {v : Vau} (h : v.text.length = 32) (f : CloseFields) {k : Nat} (hk : k < 32) :
    (closeBytes v f)[k]? = v.text[k]? := by
  unfold closeBytes overlay
  rw [List.take_of_length_le (Nat.le_of_eq h), List.take_zero, List.nil_append, List.getElem?_append_left (by omega)]

theorem closeBytes_laidOut {v : Vau} (h : v.text.length = 32) (f : CloseFields) :
    LaidOut 32 224 ((closeBytes v f).drop 32)
      [(32, 4, v.key), (36, 1, v.part), (37, 1, closeOutcome f.complete), (40, 2, countStatus v.mirror .pending),
       (42, 2, countStatus v.mirror .captured), (44, 2, countStatus v.mirror .retakeDue),
       (46, 2, countStatus v.mirror .withheld), (48, 2, countStatus v.mirror .skipped),
       (50, 2, countStatus v.mirror .exempt), (52, 4, f.totalTakes), (56, 8, f.volDose), (64, 4, f.lastFrame),
       (68, 4, f.sum)] := by
  unfold closeBytes
  rw [overlay_drop _ (by simp [h])]
  exact (layout_laidOut 256 _ ⟨by simp, by simp⟩).drop (o := 32) (by simp)

/-- Settles O30: the refusals in their order, each step of CLOSING by its writes, and the records and sums of them. -/
theorem closeVolumeFixesTheAccount : Obligations.CloseVolumeFixesTheAccount := by
  refine ⟨fun s s' i force hq => ?_, fun s j hj => ?_,
    fun v => ⟨v.incomplete_eq, sidesOf_length _, fun _ _ => sidesOf_get⟩,
    fun bytes b r => ⟨crcByte_eq r b, rfl⟩, fun v f h => ⟨fun _ => closeBytes_text h f, closeBytes_laidOut h f⟩,
    fun v => ⟨fun h => if_neg h, fun h => if_pos h⟩⟩
  · have order := execCloseVolume_of_order hq
    have queue := State.nextOrder_eq hq
    have hv : s'.vau = s.vau := by rw [queue]
    have hbase : s'.exp.base = s.exp.base := by rw [queue]
    have hhost : s'.host = s.host := by rw [queue]
    have hbusy : s'.closeBusy = s.closeBusy := by rw [queue]; rfl
    refine ⟨fun h => ?_, fun h => ?_, fun h => ?_⟩
    · rw [order, State.closeVolume, hv, h]
    · obtain h | h | h := h <;> rw [order, State.closeVolume, hv, h]
    rw [order, State.closeVolume_of_rest (by rwa [hv]), hv, hbase, hhost, hbusy]
    dsimp only
    rw [← s.closeBusy_takes]
    refine ⟨fun b => by rw [if_pos b], fun b => ?_⟩
    rw [if_neg b]
    refine ⟨fun sides unforced => by rw [if_pos ⟨sides, unforced⟩], fun passes => ?_⟩
    rw [if_neg]
    rintro ⟨sides, unforced⟩
    obtain none | forced := passes
    · exact sides none
    · exact Bool.false_ne_true (unforced.symm.trans forced)
  · intro a sum bytes goes unsettled
    have land := State.land_completed s (fun w => w.writer == .vau && w.serial < j.ticket)
    have hunsettled : (s.unsettled .left || s.unsettled .right) = true ↔ unsettled := s.unsettled_iff
    refine ⟨fun step => ⟨_, land, ?_⟩, fun step amends hands => ⟨_, land, ?_⟩, fun step waits => ?_,
      fun step => ⟨_, land, ?_⟩, fun step held => ?_, fun step free => ?_⟩
    · rw [execClosingWriteComplete_of_one hj step, State.closingStep_eq (State.writeHeader_eq _)]
      rfl
    · rw [execClosingWriteComplete_of_two hj step amends hands, State.closingStep_eq (State.writeCloseFields_eq _ _)]
      rfl
    · refine execClosingWriteComplete_of_held hj ?_
      unfold State.closingHeld
      rw [step]
      obtain h | h := waits <;> simp [h]
    · rw [execClosingWriteComplete_of_three hj step, State.closingStep_eq (State.writeCloseValid_eq _ _)]
      rfl
    · refine execClosingWriteComplete_of_held hj ?_
      unfold State.closingHeld
      rw [step]
      exact hunsettled.2 held
    · have settled : s.closingHeld j = false := by
        unfold State.closingHeld
        rw [step]
        exact Bool.eq_false_iff.2 fun k => free (hunsettled.1 k)
      rw [execClosingWriteComplete_of_four hj step settled, State.endClosing_eq]
      obtain ⟨banks, notes⟩ := State.enterRest_banks s (s.landVau j.ticket) .noVolume rfl rfl
      exact ⟨_, _, rfl, land, rfl, banks, notes⟩

end Sys2Proof.Machine
end

section
/-! SUPPORT. A capture phase (R59 to R62, R67 to R69, R71, R73): the counts it starts with, the line of the table it
takes, the check of the arm and the platen, its retakes, and its end. -/

namespace Sys2Proof.Machine

/-! ### Sets of channels -/

theorem Pair.ext_get {α : Type} {p q : Pair α} (h : ∀ c, p.get c = q.get c) : p = q := by
  obtain ⟨pl, pr⟩ := p
  obtain ⟨ql, qr⟩ := q
  obtain rfl : pl = ql := h .left
  obtain rfl : pr = qr := h .right
  rfl

theorem Chan.exists_iff {P : Chan → Prop} : (∃ c, P c) ↔ P .left ∨ P .right :=
  ⟨fun ⟨c, h⟩ => by cases c; exacts [.inl h, .inr h], fun h => h.elim (⟨_, ·⟩) (⟨_, ·⟩)⟩

/-! ### The start of a phase (R61) -/

/-- An entry of a list after a change of one entry that leaves the default as it is. -/
theorem getD_modify_of_fixed {α : Type} {f : α → α} {d : α} (fixed : f d = d) (l : List α) (k e : Nat) :
    (l.modify k f).getD e d = if e = k then f (l.getD e d) else l.getD e d := by
  simp only [List.getD_eq_getElem?_getD, List.getElem?_modify, eq_comm (a := k)]
  split
  · cases l[e]? with
    | none => exact fixed.symm
    | some x => rfl
  · cases l[e]? <;> rfl

/-- The auto-retake counts of the two visible sides are 0, and the others stand. -/
theorem Vau.resetCounts_autoCount (v : Vau) (o : Occ) (retakes : List RetakeItem) (e : Nat) (side : Side) :
    Occ.autoCount { o with auto := v.resetCounts o.auto, retakes := retakes } e side
      = if (side = .verso ∧ e = v.cursor) ∨ (side = .recto ∧ e = v.rightEntry) then 0 else o.autoCount e side := by
  simp only [Occ.autoCount, Vau.resetCounts]
  rw [getD_modify_of_fixed rfl, getD_modify_of_fixed rfl]
  cases side with
  | verso => simp only [true_and, reduceCtorEq, false_and, or_false]; split <;> split <;> rfl
  | recto => simp only [true_and, reduceCtorEq, false_and, false_or]; split <;> split <;> rfl

/-! ### The line of the table (R61, R69) -/

theorem Vau.rightIsFoldout_iff (v : Vau) :
    v.rightIsFoldout = true ↔ (planAt v.plan v.rightEntry).kind = .foldout := beq_iff_eq

theorem Vau.panelAccepted_iff (v : Vau) : v.panelAccepted = true ↔
    ((v.sideRec v.rightEntry .recto).panels.getD (v.nextPanel - 1) ⟨0, 0⟩).number ≠ 0 := bne_iff_ne

theorem Status.isTarget_iff (st : Status) :
    st.isTarget = true ↔ st = .pending ∨ st = .skipped ∨ st = .retakeDue := by
  cases st <;> decide

section PhasePlan
variable {s : State}

/-- A phase over an UNFOLDED foldout makes the panel in position, unless it is accepted. -/
theorem State.phasePlan_of_unfolded (unfolded : s.vau.unfolded = true) :
    s.phasePlan = some (if s.vau.panelAccepted then [] else [panelExposure]) := by
  rw [State.phasePlan]
  exact if_pos unfolded

/-- A FOLDED foldout whose recto is a target is to be unfolded. -/
theorem State.phasePlan_of_folded (folded : s.vau.unfolded = false) (foldout : s.vau.rightIsFoldout = true)
    (undone : s.occ.foldoutDone = false) (right : s.vau.isTarget .right = true) : s.phasePlan = none := by
  simp only [State.phasePlan, folded, foldout, undone, right]
  rfl

/-- Once the foldout is finished, only the LEFT page is left to make. -/
theorem State.phasePlan_of_finished (folded : s.vau.unfolded = false) (foldout : s.vau.rightIsFoldout = true)
    (done : s.occ.foldoutDone = true) :
    s.phasePlan = some (if s.vau.isTarget .left then [normalExposure true false] else []) := by
  simp only [State.phasePlan, folded, foldout, done, Bool.not_true, Bool.and_false]
  rfl

/-- With no foldout to handle, the targets are made at once. -/
theorem State.phasePlan_of_flat (folded : s.vau.unfolded = false)
    (flat : s.vau.rightIsFoldout = false ∨ s.occ.foldoutDone = false ∧ s.vau.isTarget .right = false) :
    s.phasePlan = some (if s.vau.isTarget .left || s.vau.isTarget .right
      then [normalExposure (s.vau.isTarget .left) (s.vau.isTarget .right)] else []) := by
  have unfold_no : (s.vau.rightIsFoldout && s.vau.isTarget .right && !s.occ.foldoutDone) = false := by
    obtain h | ⟨-, h⟩ := flat <;> simp [h]
  have finish_no : (s.vau.rightIsFoldout && s.occ.foldoutDone) = false := by
    obtain h | ⟨h, -⟩ := flat <;> simp [h]
  simp only [State.phasePlan, folded, unfold_no, finish_no]
  exact (apply_ite some _ _ _).symm

theorem State.runPhase_of_unfold (h : s.phasePlan = none) : s.runPhase = s.pause .foldoutUnfold := by
  rw [State.runPhase, h]

theorem State.runPhase_of_done (h : s.phasePlan = some []) : s.runPhase = s.runTodo [] := by
  rw [State.runPhase, h]

/-- Only a phase with an exposure to make looks at the arm and the platen (R62). -/
theorem State.runPhase_of_exposure {x : Exposure} (h : s.phasePlan = some [x]) :
    s.runPhase = s.checkInterlock [x] := by
  rw [State.runPhase, h]

end PhasePlan

/-! ### The check of the arm and the platen (R62) -/

section CheckInterlock
variable {s : State} (l : List Exposure)

theorem State.checkInterlock_of_arm (arm : s.tsq.arm ≠ .parked) : s.checkInterlock l = s.pause .armNotReady := if_pos arm

theorem State.checkInterlock_of_ready (arm : s.tsq.arm = .parked)
    (platen : s.tsq.platen = .down ∨ s.tsq.platen = .contact) : s.checkInterlock l = s.runTodo l := by
  rw [State.checkInterlock, if_neg (not_not.2 arm)]
  obtain h | h := platen <;> rw [h]

theorem State.checkInterlock_of_platen (arm : s.tsq.arm = .parked)
    (platen : s.tsq.platen = .up ∨ s.tsq.platen = .unknown ∨ s.tsq.platen = .moving) :
    s.checkInterlock l = { s with
      occ := { s.occ with work := .platen, todo := l }
      tsq := { s.tsq with inbox := s.tsq.inbox ++ [.platen] } } := by
  rw [State.checkInterlock, if_neg (not_not.2 arm)]
  obtain h | h | h := platen <;> rw [h] <;> rfl

end CheckInterlock

/-- Settles O32: the start by `Vau.resetCounts`, and each line of the table by its value of `phasePlan`. -/
theorem phaseTakesTheFirstLine : Obligations.PhaseTakesTheFirstLine := by
  refine ⟨fun s => ⟨_, rfl, rfl, s.vau.resetCounts_autoCount s.occ []⟩, fun s => ?_,
    fun s l => ⟨State.checkInterlock_of_arm l, State.checkInterlock_of_ready l, State.checkInterlock_of_platen l⟩,
    Status.isTarget_iff⟩
  intro left right foldout done
  have flat (h : ¬foldout ∨ s.occ.foldoutDone = false ∧ right = false) :
      s.vau.rightIsFoldout = false ∨ s.occ.foldoutDone = false ∧ s.vau.isTarget .right = false :=
    h.imp_left fun h => Bool.eq_false_iff.2 (s.vau.rightIsFoldout_iff.not.2 h)
  refine ⟨fun unfolded accepted => ?_, fun unfolded missing => ?_, fun folded hf undone target => ?_,
    fun folded hf finished target => ?_, fun folded hf finished taken => ?_, fun folded plain target => ?_,
    fun folded plain hl hr => ?_⟩
  · apply State.runPhase_of_done
    rw [State.phasePlan_of_unfolded unfolded, if_pos (s.vau.panelAccepted_iff.2 accepted)]
  · apply State.runPhase_of_exposure
    rw [State.phasePlan_of_unfolded unfolded, if_neg (s.vau.panelAccepted_iff.not.2 missing)]
    rfl
  · exact State.runPhase_of_unfold (State.phasePlan_of_folded folded (s.vau.rightIsFoldout_iff.2 hf) undone target)
  · apply State.runPhase_of_exposure
    rw [State.phasePlan_of_finished folded (s.vau.rightIsFoldout_iff.2 hf) finished]
    exact congrArg some (if_pos target)
  · apply State.runPhase_of_done
    rw [State.phasePlan_of_finished folded (s.vau.rightIsFoldout_iff.2 hf) finished]
    exact congrArg some (if_neg (Bool.eq_false_iff.1 taken))
  · apply State.runPhase_of_exposure
    rw [State.phasePlan_of_flat folded (flat plain)]
    exact congrArg some (if_pos (Bool.or_eq_true_iff.2 target))
  · apply State.runPhase_of_done
    rw [State.phasePlan_of_flat folded (flat plain)]
    exact congrArg some (if_neg (Bool.eq_false_iff.1 (Bool.or_eq_false_iff.2 ⟨hl, hr⟩)))

/-! ### The end of a phase (R59, R60, R69, R71, R73) -/

section PhaseEnd
variable {s : State} {i : Fin 16}

/-- A pending pause is taken at the end of a phase. -/
theorem State.phaseEnd_of_pause {kind : CycleKind} {p : PendingPause} (order : s.occ.order = some ⟨i, kind⟩)
    (cycle : ∀ e side k, kind ≠ .retake e side k) (pending : s.occ.pendingPause = some p) :
    s.phaseEnd = s.pause p.reason := by
  cases kind with
  | retake e side k => exact absurd rfl (cycle e side k)
  | advance | capture | turn => simp only [State.phaseEnd, order, pending]

/-- An UNFOLDED foldout pauses for its next panel, or for its refolding. -/
theorem State.phaseEnd_of_unfolded {kind : CycleKind} (order : s.occ.order = some ⟨i, kind⟩)
    (cycle : ∀ e side k, kind ≠ .retake e side k) (pending : s.occ.pendingPause = none)
    (unfolded : s.vau.unfolded = true) :
    s.phaseEnd = if s.vau.nextPanel < (s.vau.sideRec s.vau.rightEntry .recto).panels.length
      then s.pause .foldoutPanel else s.pause .foldoutRefold := by
  simp only [State.phaseEnd, order, pending, unfolded]
  cases kind with
  | retake e side k => exact absurd rfl (cycle e side k)
  | advance | capture | turn => rfl

theorem State.phaseEnd_of_capture (order : s.occ.order = some ⟨i, .capture⟩) (pending : s.occ.pendingPause = none)
    (folded : s.vau.unfolded = false) : s.phaseEnd = s.endDone [] := by
  simp only [State.phaseEnd, order, pending, folded]
  rfl

theorem State.phaseEnd_of_advance {n : Nat} (order : s.occ.order = some ⟨i, .advance n⟩)
    (pending : s.occ.pendingPause = none) (folded : s.vau.unfolded = false) :
    s.phaseEnd = if s.vau.atLastOpening then (s.raise .volumeEnd).endDone [⟨68, 1, bit (s.occ.turnsMade < n)⟩]
      else if s.occ.turnsLeft = 0 then s.endDone [] else s.requestTurn := by
  simp only [State.phaseEnd, order, pending, folded]
  rfl

/-- A RETAKE takes a pending pause, or ends with its outcome; WITHHELD is answered in any case (log 32). -/
theorem State.phaseEnd_of_retake {e k : Nat} {side : Side} (order : s.occ.order = some ⟨i, .retake e side k⟩) :
    (∀ code, s.occ.outcome = some code → s.occ.pendingPause = none ∨ code = 9 →
      s.phaseEnd = s.endDone [⟨78, 1, code⟩])
    ∧ ∀ p, s.occ.pendingPause = some p → s.occ.outcome ≠ some 9 → s.phaseEnd = s.pause p.reason := by
  refine ⟨fun code outcome ends => ?_, fun p pending outcome => ?_⟩
  · cases pending : s.occ.pendingPause with
    | none => simp only [State.phaseEnd, order, pending, outcome]; rfl
    | some p =>
      obtain rfl : code = 9 := ends.resolve_left (by rw [pending]; exact nofun)
      simp only [State.phaseEnd, order, pending, outcome]
      rfl
  · cases known : s.occ.outcome with
    | none => simp only [State.phaseEnd, order, pending, known]
    | some code =>
      simp only [State.phaseEnd, order, pending, known]
      exact if_neg fun h => outcome (known.trans (congrArg some h))

end PhaseEnd

/-! ### The retakes of a phase (R65, R68) -/

theorem Vau.atLastOpening_iff (v : Vau) : v.atLastOpening = true ↔ v.cursor = lastOpening v.plan := beq_iff_eq

/-- A side is made again when it is listed and no split half still to be made takes it (log 20). -/
theorem Occ.retakeSides_has (o : Occ) (c : Chan) : o.retakeSides.has c = true ↔
    (∃ i ∈ o.retakes, i.side.chan = c) ∧ ¬∃ x ∈ o.todo, x.auto = true ∧ x.sides.has c = true := by
  have listed (side : Side) : (∃ i ∈ o.retakes, i.side.chan = side.chan)
      ↔ o.retakes.any (fun i => i.side == side) = true := by
    have same (i : RetakeItem) : i.side.chan = side.chan ↔ i.side = side := by
      cases i.side <;> cases side <;> decide
    simp only [List.any_eq_true, same, beq_iff_eq]
  have planned : (∃ x ∈ o.todo, x.auto = true ∧ x.sides.has c = true)
      ↔ o.todo.any (fun x => x.auto && ChanSet.has x.sides c) = true := by
    simp only [List.any_eq_true, Bool.and_eq_true]
  rw [planned, Bool.not_eq_true, ← Bool.not_eq_true']
  cases c with
  | left => exact Bool.and_eq_true_iff.trans (and_congr_left' (listed .verso).symm)
  | right => exact Bool.and_eq_true_iff.trans (and_congr_left' (listed .recto).symm)

theorem State.goOn_eq (s : State) (panel : Bool) : s.goOn panel
    = if s.occ.retakeSides = ⟨false, false⟩ then s.runTodo s.occ.todo
      else s.runTodo (⟨s.occ.retakeSides, .retake, panel, true, true⟩ :: s.occ.todo) := by
  rw [State.goOn]
  simp only [ChanSet.isEmpty_iff]

/-- Settles O33: the end by the order in flight, and the retakes by `Occ.retakeSides`. -/
theorem phaseEndDecidesTheOrder : Obligations.PhaseEndDecidesTheOrder := by
  refine ⟨fun s i kind order cycle => ⟨fun p pending => ?_, fun pending unfolded => ?_, fun pending folded => ?_⟩,
    fun s i e k side order => ?_, fun s panel sides has => ?_⟩
  · rw [State.phaseEnd_of_pause order cycle pending]
    cases p <;> rfl
  · rw [State.phaseEnd_of_unfolded order cycle pending unfolded]
    exact ⟨fun more => if_pos more, fun last => if_neg (Nat.not_lt.2 last)⟩
  · refine ⟨?_, ?_⟩
    · rintro rfl
      exact State.phaseEnd_of_capture order pending folded
    · rintro n rfl
      rw [State.phaseEnd_of_advance order pending folded]
      simp only [Vau.atLastOpening_iff]
      refine ⟨fun last => ?_, fun more spent => ?_, fun more left => ?_⟩
      · rw [if_pos last]
        simp only [bit, decide_eq_true_eq]
        rfl
      · rw [if_neg more, if_pos spent]
      · rw [if_neg more, if_neg left]
  · obtain ⟨ends, pauses⟩ := State.phaseEnd_of_retake order
    exact ⟨ends, fun p pending outcome => (pauses p pending outcome).trans (by cases p <;> rfl)⟩
  · obtain rfl : sides = s.occ.retakeSides :=
      Pair.ext_get fun c => Bool.eq_iff_iff.2 ((has c).trans (s.occ.retakeSides_has c).symm)
    rw [State.goOn_eq]
    exact ⟨fun none => if_pos none, fun some => if_neg some⟩

end Sys2Proof.Machine
end

section
/-! SUPPORT. A cycle order taken (R58 to R60, R71, R74, R138): its refusal by the volume state, and what each order does in
READY. -/

namespace Sys2Proof.Machine

/-! ### The decision on an order (R58) -/

theorem State.nextOrder_vau {s t : State} {o : Owner} {d : Dispatched} (h : s.nextOrder o = some (d, t)) :
    t.vau = s.vau := by rw [State.nextOrder_eq h]

theorem State.cycleOrder_of_refused {s : State} {code : AnswerCode} (h : cycleRefusal s.vau.vol = some code)
    (i : Fin 16) (f : State → State) : s.cycleOrder i f = s.answer i code := by
  rw [State.cycleOrder, h]

theorem State.cycleOrder_of_ready {s : State} (h : s.vau.vol = .ready) (i : Fin 16) (f : State → State) :
    s.cycleOrder i f = f s := by
  rw [State.cycleOrder, h]
  rfl

section CycleOrders
variable {s t : State} {i : Fin 16}

theorem execAdvance_of_order {n : Nat} (h : s.nextOrder .occ = some (⟨i, .advance n⟩, t)) :
    exec .advance s = .next (t.cycleOrder i (fun s => (s.accept i (.advance n) .both n).startPhase)) := by
  show execAdvance s = _
  simp only [execAdvance, h]

theorem execCapture_of_order (h : s.nextOrder .occ = some (⟨i, .capture⟩, t)) :
    exec .capture s = .next (t.cycleOrder i (fun s => (s.accept i .capture .both 0).startPhase)) := by
  show execCapture s = _
  simp only [execCapture, h]

theorem execTurn_of_order (h : s.nextOrder .occ = some (⟨i, .turn⟩, t)) :
    exec .turn s = .next (t.cycleOrder i (fun s => s.turnOrder i)) := by
  show execTurn s = _
  simp only [execTurn, h]

theorem execRetake_of_order {e k : Nat} {side : Side} (h : s.nextOrder .occ = some (⟨i, .retake e side k⟩, t)) :
    exec .retake s = .next (t.cycleOrder i (fun s => s.retakeOrder i e side k)) := by
  show execRetake s = _
  simp only [execRetake, h]

/-- Outside READY every cycle order is answered by the volume state, and nothing else changes. -/
theorem execCycle_of_refused {c : Instr} {o : Order} {code : AnswerCode} (h : s.nextOrder .occ = some (⟨i, o⟩, t))
    (cycle : (c = .advance ∧ ∃ n, o = .advance n) ∨ (c = .capture ∧ o = .capture) ∨ (c = .turn ∧ o = .turn)
      ∨ (c = .retake ∧ ∃ e side k, o = .retake e side k))
    (refused : cycleRefusal s.vau.vol = some code) : exec c s = .next (t.answer i code) := by
  have refused' : cycleRefusal t.vau.vol = some code := by rwa [State.nextOrder_vau h]
  obtain ⟨rfl, n, rfl⟩ | ⟨rfl, rfl⟩ | ⟨rfl, rfl⟩ | ⟨rfl, e, side, k, rfl⟩ := cycle
  · rw [execAdvance_of_order h, State.cycleOrder_of_refused refused']
  · rw [execCapture_of_order h, State.cycleOrder_of_refused refused']
  · rw [execTurn_of_order h, State.cycleOrder_of_refused refused']
  · rw [execRetake_of_order h, State.cycleOrder_of_refused refused']

end CycleOrders

/-! ### An order accepted (R58, R138) -/

theorem OccMsg.reportsFaulted_eq (m : OccMsg) :
    (!m.reportsFaulted) = (m != .faulted .left && m != .faulted .right) := by
  cases m with
  | faulted c => cases c <;> decide
  | _ => rfl

/-- An accepted order is in flight, and of the FAULTED channels those that it needs are cleared. -/
theorem State.accept_accepted (s : State) (i : Fin 16) (kind : CycleKind) {needs : ChanSet} (turns : Nat)
    {f : Chan → Bool} (h : ∀ c, needs.has c = f c) : accepted s (s.accept i kind needs turns) i kind turns f := by
  refine ⟨?_, fun c => ?_⟩
  · simp only [State.accept, OccMsg.reportsFaulted_eq]
  · have cleared : (s.accept i kind needs turns).cch.get c
        = if f c = true then (s.cch.get c).clearFaulted else s.cch.get c := by
      rw [← h]
      cases c <;> rfl
    rw [cleared, Cch.clearFaulted, ite_and]
    rfl

/-! ### TURN (R60, R74) -/

theorem State.requestTurn_of_fault {s : State} (h : s.occ.pendingPause = some .cameraFault) :
    s.requestTurn = s.pause .cameraFault := if_pos h

theorem State.requestTurn_of_not {s : State} (h : s.occ.pendingPause ≠ some .cameraFault) : s.requestTurn = { s with
    occ := { s.occ with work := .turning }
    tsq := { s.tsq with inbox := s.tsq.inbox ++ [.turn s.vau.cursor] } } := if_neg h

theorem State.turnOrder_of_last {s : State} (h : s.vau.cursor = lastOpening s.vau.plan) (i : Fin 16) :
    s.turnOrder i = s.answer i .endOfVolume := if_pos (s.vau.atLastOpening_iff.2 h)

theorem State.turnOrder_of_more {s : State} (h : s.vau.cursor ≠ lastOpening s.vau.plan) (i : Fin 16) :
    s.turnOrder i = if s.vau.unfolded = true then (s.accept i .turn .empty 0).pause .foldoutRefold
      else (s.accept i .turn .empty 0).requestTurn := if_neg (s.vau.atLastOpening_iff.not.2 h)

/-! ### RETAKE (R71) -/

theorem Vau.visibleSide_iff (v : Vau) (e : Nat) (side : Side) : v.visibleSide e side = true ↔
    (side = .verso ∧ e = v.cursor) ∨ (side = .recto ∧ e = v.rightEntry) := by
  cases side with
  | verso =>
    simp only [Vau.visibleSide, Side.chan, Vau.pageEntry, beq_iff_eq, true_and, reduceCtorEq, false_and, or_false]
    exact eq_comm
  | recto =>
    simp only [Vau.visibleSide, Side.chan, Vau.pageEntry, beq_iff_eq, true_and, reduceCtorEq, false_and, false_or]
    exact eq_comm

/-- A visible side lies folded: it is the recto of a foldout, and the named panel is not in position. -/
theorem Vau.folded_iff {v : Vau} {e : Nat} {side : Side}
    (shown : (side = .verso ∧ e = v.cursor) ∨ (side = .recto ∧ e = v.rightEntry)) (k : Nat) :
    v.folded side k = true ↔ side = .recto ∧ (planAt v.plan e).kind = .foldout
      ∧ ¬(v.unfolded = true ∧ v.nextPanel = k) := by
  obtain ⟨rfl, rfl⟩ | ⟨rfl, rfl⟩ := shown
  · simp [Vau.folded]
  · simp [Vau.folded, Vau.rightIsFoldout, imp_iff_not_or]

section RetakeOrder
variable {s : State} (i : Fin 16) {e k : Nat} {side : Side}

theorem State.retakeOrder_of_absent (h : ¬((side = .verso ∧ e = s.vau.cursor) ∨ (side = .recto ∧ e = s.vau.rightEntry))
    ∨ (s.vau.sideRec e side).panels.length < k) : s.retakeOrder i e side k = s.answer i .notAtOpening := by
  rw [← Vau.visibleSide_iff] at h
  refine if_pos ?_
  rwa [Bool.or_eq_true, Bool.not_eq_true', decide_eq_true_eq, ← Bool.not_eq_true]

/-- A RETAKE of a panel that the opening shows is answered FOLDED_SIDE or accepted. -/
theorem State.retakeOrder_of_shown
    (shown : (side = .verso ∧ e = s.vau.cursor) ∨ (side = .recto ∧ e = s.vau.rightEntry))
    (listed : k ≤ (s.vau.sideRec e side).panels.length) :
    s.retakeOrder i e side k = if s.vau.folded side k then s.answer i .foldedSide
      else (s.accept i (.retake e side k) (.only side.chan) 0).checkInterlock [retakeExposure side] := by
  refine if_neg ?_
  rw [(s.vau.visibleSide_iff e side).2 shown]
  simpa using listed

end RetakeOrder

theorem ChanSet.only_has (c d : Chan) : (ChanSet.only c).has d = (d == c) := by cases c <;> cases d <;> rfl

/-- Settles O31: the refusals by `cycleRefusal`, and each order in READY by its own rule on the accepted state. -/
theorem cycleOrdersAreDecided : Obligations.CycleOrdersAreDecided := by
  refine ⟨fun c o i s s' hq cycle => ?_, fun n i s s' hq ready => ?_, fun i s s' hq ready => ?_,
    fun i s s' hq ready => ?_, fun e k side i s s' hq ready => ?_,
    fun s => ⟨State.requestTurn_of_fault, State.requestTurn_of_not⟩⟩
  · refine ⟨fun h => ?_, fun h => ?_, fun h => ?_⟩
    · exact execCycle_of_refused hq cycle (by rw [h]; rfl)
    · exact execCycle_of_refused hq cycle (by obtain h | h | h := h <;> rw [h] <;> rfl)
    · exact execCycle_of_refused hq cycle (by rw [h]; rfl)
  all_goals rw [← State.nextOrder_vau hq] at ready
  · refine ⟨_, State.accept_accepted _ i (.advance n) (needs := .both) n (fun c => by cases c <;> rfl), ?_⟩
    rw [execAdvance_of_order hq, State.cycleOrder_of_ready ready]
  · refine ⟨_, State.accept_accepted _ i .capture (needs := .both) 0 (fun c => by cases c <;> rfl), ?_⟩
    rw [execCapture_of_order hq, State.cycleOrder_of_ready ready]
  · rw [execTurn_of_order hq, State.cycleOrder_of_ready ready, ← State.nextOrder_vau hq]
    refine ⟨fun last => by rw [State.turnOrder_of_last last], fun more =>
      ⟨_, State.accept_accepted _ i .turn (needs := .empty) 0 (fun c => by cases c <;> rfl),
        fun unfolded => ?_, fun folded => ?_⟩⟩
    · rw [State.turnOrder_of_more more, if_pos unfolded]
    · rw [State.turnOrder_of_more more, if_neg (Bool.eq_false_iff.1 folded)]
  · rw [execRetake_of_order hq, State.cycleOrder_of_ready ready, ← State.nextOrder_vau hq]
    intro shown lies
    refine ⟨fun absent => by rw [State.retakeOrder_of_absent i absent], fun visible listed folded => ?_,
      fun visible listed flat => ⟨_, State.accept_accepted _ i (.retake e side k) 0 (ChanSet.only_has side.chan), ?_⟩⟩
    · rw [State.retakeOrder_of_shown i visible listed, if_pos ((Vau.folded_iff visible k).2 folded)]
    · rw [State.retakeOrder_of_shown i visible listed, if_neg ((Vau.folded_iff visible k).not.2 flat)]
      cases side <;> rfl

end Sys2Proof.Machine
end

section
/-! SUPPORT. An exposure begun (R63, R64, R73, R75, R144, R147): its channels waited for, its reservations, and the wait
for room. -/

namespace Sys2Proof.Machine

/-! ### The messages OCC takes (R57) -/

/-- OCC takes a message: its inbox changes alone. -/
theorem State.nextMsg_inbox {s t : State} {f : Sender} {m : OccMsg} (h : s.nextMsg f = some (m, t)) :
    ∃ q, t = { s with occ := { s.occ with inbox := q } } := ⟨_, State.nextMsg_eq h⟩

theorem Occ.stopping_iff (o : Occ) : o.stopping = true ↔ o.stops ≠ [] := by
  simp [Occ.stopping]

/-! ### The begin of an exposure (R63, R73) -/

theorem State.anyFaulted_iff (s : State) (x : Exposure) :
    s.anyFaulted x = true ↔ ∃ c, x.sides.has c = true ∧ (s.cch.get c).state = .faulted := by
  rw [Chan.exists_iff]
  simp only [State.anyFaulted, Bool.or_eq_true, Bool.and_eq_true, beq_iff_eq]
  rfl

theorem ChanState.outstanding_iff (st : ChanState) :
    st.outstanding = true ↔ st = .armed ∨ st = .exposed ∨ st = .receiving := by
  cases st <;> decide

theorem State.mustWait_iff (s : State) (x : Exposure) : s.mustWait x = true ↔ ∃ c, x.sides.has c = true
    ∧ ((s.cch.get c).state = .armed ∨ (s.cch.get c).state = .exposed ∨ (s.cch.get c).state = .receiving) := by
  simp only [← ChanState.outstanding_iff, Chan.exists_iff, State.mustWait, Bool.or_eq_true, Bool.and_eq_true]
  rfl

theorem State.stillWanted_eq (s : State) (x : Exposure) :
    s.stillWanted x = { x with sides := (s.stillWanted x).sides } := by
  unfold State.stillWanted
  split <;> rfl

/-- A side is still wanted of an exposure that is kept, or where it is still a target. -/
theorem State.stillWanted_has (s : State) (x : Exposure) (c : Chan) :
    (s.stillWanted x).sides.has c = (x.sides.has c && (x.keep || s.vau.isTarget c)) := by
  unfold State.stillWanted
  split
  · next keep => rw [keep, Bool.true_or, Bool.and_true]
  · next drop =>
    rw [Bool.eq_false_iff.2 drop, Bool.false_or]
    cases c <;> rfl

theorem ChanSet.isEmpty_eq_false {x : ChanSet} {c : Chan} (h : x.has c = true) : x.isEmpty = false := by
  rw [← Bool.not_eq_true, ChanSet.isEmpty_iff]
  rintro rfl
  cases c <;> cases h

section RunTodo
variable {s : State} {x : Exposure} (rest : List Exposure)

theorem State.runTodo_of_faulted (h : s.occ.pendingPause = some .cameraFault ∨ s.anyFaulted x = true) :
    s.runTodo (x :: rest) = s.pause .cameraFault := by
  rw [State.runTodo]
  exact if_pos (by rwa [Bool.or_eq_true, decide_eq_true_eq])

/-- With no fault in its way an exposure waits for the takes outstanding on its channels, is passed over, or asks for
its first reservation. -/
theorem State.runTodo_of_sound (h : ¬(s.occ.pendingPause = some .cameraFault ∨ s.anyFaulted x = true)) :
    s.runTodo (x :: rest) = if s.mustWait x then { s with occ := { s.occ with work := .channelWait x, todo := rest } }
      else if (s.stillWanted x).sides.isEmpty then s.runTodo rest
      else State.reserveOn { s with occ := { s.occ with todo := rest } } (s.stillWanted x)
        (if (s.stillWanted x).sides.left then .left else .right) := by
  rw [State.runTodo]
  exact if_neg (by rwa [Bool.or_eq_true, decide_eq_true_eq])

end RunTodo

/-- The first channel of an exposure is LEFT, where it takes that side. -/
theorem ChanSet.first_eq {x : ChanSet} {c : Chan} (h : x.has c = true) (first : c = .right → x.has .left = false) :
    (if x.left then .left else .right) = c := by
  cases c with
  | left => exact if_pos h
  | right => exact if_neg (Bool.eq_false_iff.1 (first rfl))

/-! ### The reservations (R64, R75, R147) -/

section Reservation
variable {s t : State} {c : Chan} {x : Exposure}

theorem execReservationAnswer_of_reserved {r : Reservation} (h : s.nextMsg (.fbk c) = some (.reserved c r, t))
    (work : s.occ.work = .reserving x c) : exec (.reservationAnswer c) s = .next (t.reserved x c r) := by
  obtain ⟨q, rfl⟩ := State.nextMsg_inbox h
  show execReservationAnswer c s = _
  simp only [execReservationAnswer, h, work, if_true]

theorem execReservationAnswer_of_noRoom (h : s.nextMsg (.fbk c) = some (.noRoom c, t))
    (work : s.occ.work = .reserving x c) : exec (.reservationAnswer c) s = .next (t.noRoom x c) := by
  obtain ⟨q, rfl⟩ := State.nextMsg_inbox h
  show execReservationAnswer c s = _
  simp only [execReservationAnswer, h, work, if_true]

theorem execReservationAnswer_of_released (h : s.nextMsg (.fbk c) = some (.released c, t)) :
    exec (.reservationAnswer c) s = .next (t.released c) := by
  show execReservationAnswer c s = _
  simp only [execReservationAnswer, h]

/-- What OCC does with the descriptor it now holds: a stopped order ends, the RIGHT channel is asked, or admission. -/
theorem State.reserved_eq (s : State) (x : Exposure) (c : Chan) (r : Reservation) :
    let u : State := { s with occ := { s.occ with held := s.occ.held.set c (some r) } }
    s.reserved x c r = if s.occ.stops ≠ [] then u.endStopped
      else if c = .left ∧ x.sides.has .right = true then
        if s.cch.right.state = .faulted then u.pause .cameraFault else u.reserveOn x .right
      else u.askAdmission x := by
  simp only [← Occ.stopping_iff]
  rfl

theorem State.noRoom_eq (s : State) (x : Exposure) (c : Chan) : s.noRoom x c = if s.occ.stops ≠ [] then s.endStopped
    else { s with occ := { s.occ with roomWatch := some s.profile.roomClass, work := .roomWait x c } } := by
  simp only [← Occ.stopping_iff]
  rfl

/-! ### The wait for room (R64, R73, R144) -/

theorem execGrantReport_of_wait (h : s.nextMsg (.fbk c) = some (.granted c, t)) (work : s.occ.work = .roomWait x c) :
    exec (.grantReport c) s = .next (if (s.cch.get c).state = .faulted then t.pause .cameraFault
      else State.reserveOn { t with occ := { t.occ with roomWatch := none } } x c) := by
  obtain ⟨q, rfl⟩ := State.nextMsg_inbox h
  show execGrantReport c s = _
  simp only [execGrantReport, h, work, if_true]
  rfl

theorem execGrantReport_of_other (h : s.nextMsg (.fbk c) = some (.granted c, t))
    (work : ∀ x, s.occ.work ≠ .roomWait x c) : exec (.grantReport c) s = .next t := by
  obtain ⟨q, rfl⟩ := State.nextMsg_inbox h
  show execGrantReport c s = _
  simp only [execGrantReport, h]
  split
  · next x d other => rw [if_neg (by rintro rfl; exact work x other)]
  · rfl

theorem execRoomWatchExpiry_of_wait {k : Nat} (work : s.occ.work = .roomWait x c) (watch : s.occ.roomWatch = some k)
    (class_ne : k ≠ 0) : exec .roomWatchExpiry s = .next (s.pause .noRoom) := by
  show execRoomWatchExpiry s = _
  simp only [execRoomWatchExpiry, work]
  rw [if_pos]
  rw [watch]
  exact bne_iff_ne.2 class_ne

end Reservation

/-- Settles O35: the begin by `runTodo`, and each answer by the work it finds. -/
theorem exposuresWaitAndReserve : Obligations.ExposuresWaitAndReserve := by
  refine ⟨fun s x rest => ?_, fun c r x s s' hm work => ?_, fun c x s s' hm work => ?_, fun c s s' hm => ?_,
    fun c x s s' hm work => ?_, fun c s s' hm work => execGrantReport_of_other hm work,
    fun x c k s work watch running => execRoomWatchExpiry_of_wait work watch running⟩
  · intro faulted busy
    have hfault : (s.occ.pendingPause = some .cameraFault ∨ s.anyFaulted x = true) ↔ faulted :=
      or_congr_right (s.anyFaulted_iff x)
    refine ⟨fun fault => State.runTodo_of_faulted rest (hfault.2 fault), fun sound wait => ?_, fun sound free =>
      ⟨s.stillWanted x, s.stillWanted_eq x, s.stillWanted_has x, fun lost => ?_, fun c has first => ?_⟩, rfl⟩
    · rw [State.runTodo_of_sound rest (hfault.not.2 sound), if_pos ((s.mustWait_iff x).2 wait)]
    · have empty : (s.stillWanted x).sides.isEmpty = true :=
        (ChanSet.isEmpty_iff _).2 (Pair.ext_get fun c => (lost c).trans (by cases c <;> rfl))
      rw [State.runTodo_of_sound rest (hfault.not.2 sound), if_neg ((s.mustWait_iff x).not.2 free), if_pos empty]
    · rw [State.runTodo_of_sound rest (hfault.not.2 sound), if_neg ((s.mustWait_iff x).not.2 free),
        if_neg (Bool.eq_false_iff.1 (ChanSet.isEmpty_eq_false has)), ChanSet.first_eq has first]
      rfl
  · rw [execReservationAnswer_of_reserved hm work, State.reserved_eq]
    obtain ⟨q, rfl⟩ := State.nextMsg_inbox hm
    refine ⟨_, rfl, fun stopped => ?_, fun running left right => ⟨fun fault => ?_, fun sound => ?_⟩,
      fun running last => ?_⟩
    · rw [if_pos stopped]
    · rw [if_neg (not_not.2 running), if_pos ⟨left, right⟩, if_pos fault]
    · rw [if_neg (not_not.2 running), if_pos ⟨left, right⟩, if_neg sound]
      rfl
    · rw [if_neg (not_not.2 running), if_neg]
      · rfl
      · rintro ⟨rfl, right⟩
        obtain h | h := last
        · cases h
        · exact Bool.false_ne_true (h.symm.trans right)
  · rw [execReservationAnswer_of_noRoom hm work, State.noRoom_eq]
    obtain ⟨q, rfl⟩ := State.nextMsg_inbox hm
    exact ⟨fun stopped => by rw [if_pos stopped], fun running => by rw [if_neg (not_not.2 running)]; rfl⟩
  · rw [execReservationAnswer_of_released hm]
    obtain ⟨q, rfl⟩ := State.nextMsg_inbox hm
    exact ⟨fun waits => congrArg _ (if_pos waits), fun works => congrArg _ (if_neg works)⟩
  · rw [execGrantReport_of_wait hm work]
    obtain ⟨q, rfl⟩ := State.nextMsg_inbox hm
    exact ⟨fun fault => by rw [if_pos fault], fun sound => by rw [if_neg sound]; rfl⟩

end Sys2Proof.Machine
end

section
/-! SUPPORT. The answer to an admission (R43, R65, R66, R68, R75): the arm requests, the releases asked for, and a side
withheld. -/

namespace Sys2Proof.Machine

theorem pageSide_eq (c : Chan) : pageSide c = if c = .left then .verso else .recto := by cases c <;> rfl

/-! ### The arm requests (R66) -/

/-- The arm request for one channel: the descriptor, the time, and the leaf, the side and the panel of its page. -/
def State.armRequest (s : State) (c : Chan) (time : Nat) (r : Reservation) : ArmReq :=
  ⟨r, time, s.vau.pageEntry c, if c = .left then .verso else .recto,
    if c = .right ∧ (planAt s.vau.plan s.vau.rightEntry).kind = .foldout then s.vau.nextPanel else 1⟩

theorem Vau.armPanel_eq (v : Vau) (c : Chan) : v.armPanel c
    = if c = .right ∧ (planAt v.plan v.rightEntry).kind = .foldout then v.nextPanel else 1 := by
  simp only [← Vau.rightIsFoldout_iff]
  cases c <;> simp [Vau.armPanel]

theorem State.sendArm_of_held {s : State} {c : Chan} {r : Reservation} (h : s.occ.held.get c = some r) (time : Nat) :
    s.sendArm c time = { s with
      occ := { s.occ with held := s.occ.held.set c none }
      cch := s.cch.set c { s.cch.get c with arms := (s.cch.get c).arms ++ [s.armRequest c time r] } } := by
  simp only [State.sendArm, h, pageSide_eq, Vau.armPanel_eq]
  rfl

theorem State.sendArm_of_none {s : State} {c : Chan} (h : s.occ.held.get c = none) (time : Nat) :
    s.sendArm c time = s := by
  simp only [State.sendArm, h]

/-- The request to one channel, where the exposure takes its side. -/
def State.sendArmOf (s : State) (x : Exposure) (time : Nat) (c : Chan) : State :=
  if x.sides.has c then s.sendArm c time else s

theorem State.askArms_eq (s : State) (x : Exposure) (time : Nat) : s.askArms x time
    = ((s.setWork (.arming x .empty .empty)).sendArmOf x time .left).sendArmOf x time .right := rfl

/-- In t a channel has been asked to arm, with its reservation, or stands as in s where the exposure leaves it out. -/
def State.ArmAsked (s t : State) (x : Exposure) (time : Nat) (c : Chan) : Prop :=
  (∀ r, x.sides.has c = true → s.occ.held.get c = some r → t.occ.held.get c = none
    ∧ t.cch.get c = { s.cch.get c with arms := (s.cch.get c).arms ++ [s.armRequest c time r] })
  ∧ (x.sides.has c = false → t.occ.held.get c = s.occ.held.get c ∧ t.cch.get c = s.cch.get c)

/-- t is s but for the reservations and the channels. -/
def State.SameButArms (s t : State) : Prop :=
  t = { s with occ := { s.occ with held := t.occ.held }, cch := t.cch }

theorem State.SameButArms.vau {s t : State} (h : State.SameButArms s t) : t.vau = s.vau := by
  rw [show t = _ from h]

theorem State.SameButArms.trans {s t u : State} (h : State.SameButArms s t) (k : State.SameButArms t u) :
    State.SameButArms s u := by
  unfold State.SameButArms at h k ⊢
  rw [k, h]

theorem State.sendArmOf_spec (s : State) (x : Exposure) (time : Nat) (c : Chan) :
    let t := s.sendArmOf x time c
    State.SameButArms s t ∧ State.ArmAsked s t x time c
      ∧ ∀ d, d ≠ c → t.occ.held.get d = s.occ.held.get d ∧ t.cch.get d = s.cch.get d := by
  intro t
  cases has : x.sides.has c with
  | false =>
    have same : t = s := if_neg (Bool.eq_false_iff.1 has)
    rw [same]
    exact ⟨rfl, ⟨fun r yes => absurd (has.symm.trans yes) Bool.false_ne_true, fun _ => ⟨rfl, rfl⟩⟩,
      fun _ _ => ⟨rfl, rfl⟩⟩
  | true =>
    have sent : t = s.sendArm c time := if_pos has
    cases held : s.occ.held.get c with
    | none =>
      rw [sent, State.sendArm_of_none held]
      exact ⟨rfl, ⟨fun r _ k => absurd (held.symm.trans k) nofun, fun _ => ⟨rfl, rfl⟩⟩, fun _ _ => ⟨rfl, rfl⟩⟩
    | some r =>
      rw [sent, State.sendArm_of_held held]
      refine ⟨rfl, ⟨fun q _ k => ?_, fun no => absurd (has.symm.trans no) nofun⟩, fun d other =>
        ⟨Pair.get_set_other _ _ _ _ other, Pair.get_set_other _ _ _ _ other⟩⟩
      obtain rfl : r = q := Option.some.inj (held.symm.trans k)
      exact ⟨Pair.get_set .., Pair.get_set ..⟩

/-- OCC asks each channel of the exposure to arm, and nothing else changes. -/
theorem State.askArms_spec (s : State) (x : Exposure) (time : Nat) :
    let t := s.askArms x time
    State.SameButArms (s.setWork (.arming x .empty .empty)) t ∧ ∀ c, State.ArmAsked s t x time c := by
  dsimp only
  rw [State.askArms_eq]
  obtain ⟨same, asked, others⟩ := (s.setWork (.arming x .empty .empty)).sendArmOf_spec x time .left
  generalize State.sendArmOf _ x time .left = u at same asked others
  obtain ⟨same', asked', others'⟩ := u.sendArmOf_spec x time .right
  generalize u.sendArmOf x time .right = t at same' asked' others'
  have vau : u.vau = s.vau := same.vau
  obtain ⟨heldR, cchR⟩ := others .right nofun
  obtain ⟨heldL, cchL⟩ := others' .left nofun
  refine ⟨same.trans same', fun c => ?_⟩
  cases c with
  | left =>
    unfold State.ArmAsked
    rw [heldL, cchL]
    exact asked
  | right =>
    unfold State.ArmAsked State.armRequest at asked' ⊢
    rw [heldR, cchR, vau] at asked'
    exact asked'

/-! ### The releases asked for (R65, R147) -/

theorem State.askRelease_of_none {s : State} {c : Chan} (h : s.occ.held.get c = none) : s.askRelease c = s := by
  rw [State.askRelease, h]

theorem State.askRelease_of_held {s : State} {c : Chan} {r : Reservation} (h : s.occ.held.get c = some r) :
    s.askRelease c = { s with
      occ := { s.occ with held := s.occ.held.set c none, releasing := s.occ.releasing.set c true }
      fbk := s.fbk.set c { s.fbk.get c with inbox := (s.fbk.get c).inbox ++ [.release r.bank r.index] } } := by
  rw [State.askRelease, h]
  rfl

/-! ### A side withheld (R43, R68, R71) -/

theorem Status.withhold_eq (st : Status) :
    st.withhold = if st = .pending ∨ st = .skipped ∨ st = .retakeDue then .withheld else st := by
  cases st <;> rfl

/-- The entries of the mirror after a side is withheld: one status changed, and nothing else. -/
theorem Vau.withhold_get {v : Vau} {e : Nat} {x : LedgerEntry} (h : v.mirror[e]? = some x) (leaf : Nat) (side : Side) :
    ∃ y, (v.withhold leaf side).mirror[e]? = some y
      ∧ y = { x with
          verso := { x.verso with status := y.verso.status }
          recto := { x.recto with status := y.recto.status } }
      ∧ ∀ d, (y.sideRec d).status = if e = leaf ∧ d = side ∧ ((x.sideRec d).status = .pending
          ∨ (x.sideRec d).status = .skipped ∨ (x.sideRec d).status = .retakeDue) then .withheld
        else (x.sideRec d).status := by
  obtain ⟨y, hy, same, sides⟩ :=
    Vau.mapSide_get h leaf side (fun r => { r with status := r.status.withhold })
  have keeps (d : Side) : y.sideRec d = { x.sideRec d with status := (y.sideRec d).status } := by
    rw [sides d]
    split <;> rfl
  refine ⟨y, hy, same.trans (congrArg₂ (fun v r => { x with verso := v, recto := r }) (keeps .verso) (keeps .recto)),
    fun d => ?_⟩
  by_cases here : e = leaf ∧ d = side
  · obtain ⟨rfl, rfl⟩ := here
    rw [sides d, if_pos ⟨rfl, rfl⟩]
    simpa only [true_and] using Status.withhold_eq _
  · rw [sides d, if_neg here, if_neg fun ⟨he, hd, _⟩ => here ⟨he, hd⟩]

/-- The side of a channel's page is withheld, with the writes of the change; its automatic retake leaves the list, and
a RETAKE has its outcome. -/
theorem State.applyWithhold_eq (s : State) (x : Exposure) (c : Chan) :
    let v := s.vau.withhold (s.vau.pageEntry c) (pageSide c)
    s.applyWithhold x c = { s with
      vau := v
      host := s.host.issued .vau (ledgerWrites s.exp.base s.vau v false)
      occ := { s.occ with
        outcome := if isRetake s.occ.order = true then some 9 else s.occ.outcome
        retakes := if x.auto = true then s.occ.retakes.filter (fun i => i.side != pageSide c)
          else s.occ.retakes } } := by
  intro v
  unfold State.applyWithhold
  rw [State.changeAccount_writes _ _ _ (Vau.mapSide_length ..)]
  dsimp only [State.setOcc]
  obtain _ | ⟨_, _ | _ | _ | _⟩ := s.occ.order <;> rfl

/-! ### The answer (R65, R75) -/

theorem State.nextMsg_stops {s t : State} {f : Sender} {m : OccMsg} (h : s.nextMsg f = some (m, t)) :
    t.occ.stops = s.occ.stops := by rw [State.nextMsg_eq h]

theorem execAdmissionAnswer_of_work {s t : State} {x : Exposure} {a : AdmissionReply}
    (h : s.nextMsg .ldu = some (.admission a, t)) (work : s.occ.work = .admitting x) :
    exec .admissionAnswer s = .next (t.admissionAnswer x a) := by
  obtain ⟨q, rfl⟩ := State.nextMsg_inbox h
  show execAdmissionAnswer s = _
  simp only [execAdmissionAnswer, h, work]

/-- After a STOP every answer but ABANDONED lets the order wait for the answer to its abandon (log 18). -/
theorem State.admissionAnswer_of_stopped {s : State} (h : s.occ.stops ≠ []) (x : Exposure) {a : AdmissionReply}
    (ha : (∃ time d, a = .admitted time d) ∨ a = .split ∨ ∃ c b, a = .doseLimit c b) :
    s.admissionAnswer x a = s.setWork .cancelling := by
  obtain ⟨time, d, rfl⟩ | rfl | ⟨c, b, rfl⟩ := ha
  all_goals exact if_pos ((Occ.stopping_iff _).2 h)

theorem State.admissionAnswer_withheld (s : State) (x : Exposure) (c : Chan) (b : Bound) :
    s.admissionAnswer x (.withheld c b) = if s.occ.stops ≠ [] then (s.applyWithhold x c).setWork .cancelling
      else ((s.applyWithhold x c).askRelease c).goOn x.panel := by
  simp only [State.admissionAnswer, Occ.stopping_iff]
  rw [State.applyWithhold_eq]

section Running
variable {s : State} (h : s.occ.stops = []) (x : Exposure)
include h

theorem State.admissionAnswer_admitted (time : Nat) (d : Bool) :
    s.admissionAnswer x (.admitted time d) = s.askArms x time := if_neg ((Occ.stopping_iff _).not.2 (not_not.2 h))

theorem State.admissionAnswer_split : s.admissionAnswer x .split
    = ((s.askRelease .left).askRelease .right).runTodo (x.half .left :: x.half .right :: s.occ.todo) :=
  if_neg ((Occ.stopping_iff _).not.2 (not_not.2 h))

theorem State.admissionAnswer_doseLimit (c : Chan) (b : Bound) :
    s.admissionAnswer x (.doseLimit c b) = s.pause .doseLimit b.code :=
  if_neg ((Occ.stopping_iff _).not.2 (not_not.2 h))

end Running

/-- Settles O36: each answer by the branch of `admissionAnswer` it takes, with and without a STOP. -/
theorem admissionAnswersSteerTheExposure : Obligations.AdmissionAnswersSteerTheExposure := by
  refine ⟨fun x s s' work running => ?_, fun x s s' work stopped => ?_,
    fun s c => ⟨State.askRelease_of_none, fun r => State.askRelease_of_held⟩, fun s x c => ?_, rfl⟩
  · refine ⟨fun time d hm => ?_, fun hm => ?_, fun c b hm => ?_, fun c b hm => ?_⟩
    all_goals rw [execAdmissionAnswer_of_work hm work]
    all_goals have running' : s'.occ.stops = [] := (State.nextMsg_stops hm).trans running
    · obtain ⟨same, asked⟩ := s'.askArms_spec x time
      rw [State.admissionAnswer_admitted running']
      obtain ⟨q, rfl⟩ := State.nextMsg_inbox hm
      exact ⟨_, rfl, same, asked⟩
    · rw [State.admissionAnswer_split running']
      obtain ⟨q, rfl⟩ := State.nextMsg_inbox hm
      rfl
    · rw [State.admissionAnswer_withheld, if_neg (not_not.2 running')]
    · rw [State.admissionAnswer_doseLimit running']
  · refine ⟨fun hm => execAdmissionAnswer_of_work hm work, fun a hm ha => ?_, fun c b hm => ?_⟩
    all_goals rw [execAdmissionAnswer_of_work hm work]
    all_goals have stopped' : s'.occ.stops ≠ [] := by rwa [State.nextMsg_stops hm]
    · rw [State.admissionAnswer_of_stopped stopped' x ha]
      rfl
    · rw [State.admissionAnswer_withheld, if_pos stopped']
  · rw [State.applyWithhold_eq, pageSide_eq]
    exact ⟨_, rfl, rfl, rfl, fun retake => if_pos retake, fun cycle => if_neg (Bool.eq_false_iff.1 cycle), rfl,
      fun e y hy => Vau.withhold_get hy ..⟩

end Sys2Proof.Machine
end

section
/-! SUPPORT. An exposure armed and fired (R66 to R68, R73, R75, R76): the channels' answers, the fire request and its
outcome, and the answer to a cancel. -/

namespace Sys2Proof.Machine

/-! ### The exposures whose judgements are awaited (R67) -/

/-- OCC awaits the judgements under the profile's wait, of a foldout panel, and of a RETAKE. -/
theorem State.awaits_iff (s : State) (x : Exposure) : s.awaits x = true ↔
    s.profile.wait = true ∨ x.panel = true ∨ isRetake s.occ.order = true := by
  rw [State.awaits, Bool.or_eq_true, Bool.or_eq_true, or_assoc]
  obtain _ | ⟨_, _ | _ | _ | _⟩ := s.occ.order <;> exact Iff.rfl

theorem State.nextMsg_profile {s t : State} {f : Sender} {m : OccMsg} (h : s.nextMsg f = some (m, t)) :
    t.profile = s.profile := by
  rw [State.nextMsg_eq h]
  rfl

theorem Judgement.passed_eq (sides : ChanSet) (j : Judgement) :
    j.passed sides = if sides.has j.chan = true then { j with late := true } else j := by
  unfold Judgement.passed
  split
  · next has => rw [has, Bool.or_true]
  · next other => rw [Bool.eq_false_iff.2 other, Bool.or_false]

/-! ### The channels' answers (R66, R68, R75) -/

/-- The answer of one channel that it is armed, before OCC looks whether it was the last. -/
def State.armCounted (s : State) (x : Exposure) (answered armed : ChanSet) (c : Chan) : State :=
  { s with occ := { s.occ with
      takesMade := s.occ.takesMade + 1
      work := .arming x (answered.set c true) (armed.set c true)
      retakes := if x.auto then s.occ.retakes.filter (fun i => i.side != pageSide c) else s.occ.retakes } }

@[simp] theorem State.armCounted_stops (s : State) (x : Exposure) (answered armed : ChanSet) (c : Chan) :
    (s.armCounted x answered armed c).occ.stops = s.occ.stops := rfl

theorem State.armedAnswer_true (s : State) (x : Exposure) (answered armed : ChanSet) (c : Chan) :
    s.armedAnswer x answered armed c true
      = (s.armCounted x answered armed c).afterArmed x (answered.set c true) (armed.set c true) := by
  simp only [State.armedAnswer, Bool.and_true]
  rfl

theorem execArmedAnswer_of_work {s t : State} {c : Chan} {x : Exposure} {answered armed : ChanSet}
    (h : s.nextMsg (.cch c) = some (.armed c true, t)) (work : s.occ.work = .arming x answered armed) :
    exec (.armedAnswer c) s
      = .next ((t.armCounted x answered armed c).afterArmed x (answered.set c true) (armed.set c true)) := by
  rw [← State.armedAnswer_true]
  obtain ⟨q, rfl⟩ := State.nextMsg_inbox h
  show execArmedAnswer c s = _
  simp only [execArmedAnswer, h, work]

theorem State.afterArmed_eq (s : State) (x : Exposure) (answered armed : ChanSet) : s.afterArmed x answered armed =
    if answered = x.sides then
      if s.occ.stops ≠ [] then (s.setWork .cancelling).toLdu (.cancel armed)
      else if armed = x.sides then s.askFire x else s
    else s := by
  simp only [← Occ.stopping_iff]
  rfl

/-- The fire request: the judgements of earlier takes on its channels are late, and those of the exposure are awaited
from here on where they are awaited at all (logs 12, 22). -/
theorem State.askFire_eq (s : State) (x : Exposure) : s.askFire x = { s with
    occ := { s.occ with
      work := .firing x
      awaiting := if s.profile.wait = true ∨ x.panel = true ∨ isRetake s.occ.order = true then x.sides
        else ⟨false, false⟩ }
    vau := { s.vau with
      judgements := s.vau.judgements.map (fun j => if x.sides.has j.chan = true then { j with late := true } else j) }
    ldu := { s.ldu with inbox := s.ldu.inbox ++ [.fire] } } := by
  simp only [← Judgement.passed_eq, ← State.awaits_iff]
  rfl

/-! ### The outcome of the fire request (R66, R67, R73, R76) -/

theorem execFireAnswer_of_work {s t : State} {x : Exposure} {a : FireReply} (h : s.nextMsg .ldu = some (.fire a, t))
    (work : s.occ.work = .firing x) : exec .fireAnswer s = .next (t.fireAnswer x a) := by
  obtain ⟨q, rfl⟩ := State.nextMsg_inbox h
  show execFireAnswer s = _
  simp only [execFireAnswer, h, work]

theorem State.fireAnswer_strobeEnd (s : State) (x : Exposure) : s.fireAnswer x .strobeEnd =
    if s.occ.stops ≠ [] then s.setWork .cancelling
    else if s.occ.pendingPause = some .cameraFault then s.pause .cameraFault
    else if s.profile.wait = true ∨ x.panel = true ∨ isRetake s.occ.order = true
      then (s.setWork (.judging x)).afterJudged
    else s.runTodo s.occ.todo := by
  simp only [← Occ.stopping_iff, ← State.awaits_iff]
  rfl

theorem State.fireAnswer_notReady (s : State) (x : Exposure) : s.fireAnswer x .notReady =
    if s.occ.stops ≠ [] then s.setWork .cancelling else s.pause .armNotReady := by
  simp only [← Occ.stopping_iff]
  rfl

theorem execCancelAnswer_of_done {s t : State} (h : s.nextMsg .ldu = some (.done, t)) :
    exec .cancelAnswer s = .next (if s.occ.work = .cancelling then t.endStopped else t) := by
  obtain ⟨q, rfl⟩ := State.nextMsg_inbox h
  show execCancelAnswer s = _
  simp only [execCancelAnswer, h]

/-- Settles O37: each answer by what it finds of the exposure, of a STOP and of a pending pause. -/
theorem armedExposuresFire : Obligations.ArmedExposuresFire := by
  refine ⟨fun c x answered armed s s' hm work => ?_, fun x s s' work => ?_, fun s s' hm => ?_⟩
  · rw [execArmedAnswer_of_work hm work, State.afterArmed_eq, State.armCounted_stops]
    obtain ⟨q, rfl⟩ := State.nextMsg_inbox hm
    refine ⟨fun more => ?_, fun last running all => ?_, fun last stopped => ?_⟩
    · rw [if_neg more]
      rfl
    · rw [if_pos last, if_neg (not_not.2 running), if_pos all, State.askFire_eq]
      rfl
    · rw [if_pos last, if_pos stopped]
      rfl
  · refine ⟨fun hm => ?_, fun hm => ?_, fun hm => execFireAnswer_of_work hm work⟩
    all_goals rw [execFireAnswer_of_work hm work]
    · rw [State.fireAnswer_strobeEnd, State.nextMsg_profile hm]
      obtain ⟨q, rfl⟩ := State.nextMsg_inbox hm
      refine ⟨fun stopped => ?_, fun running fault => ?_, fun running sound free => ?_, fun running sound awaited =>
        ⟨_, rfl, fun more => ?_, fun last => ?_⟩⟩
      · rw [if_pos stopped]
        rfl
      · rw [if_neg (not_not.2 running), if_pos fault]
      · rw [if_neg (not_not.2 running), if_neg sound, if_neg free]
      · rw [if_neg (not_not.2 running), if_neg sound, if_pos awaited]
        refine congrArg _ (State.afterJudged_of_not (.inr ?_))
        exact more
      · rw [if_neg (not_not.2 running), if_neg sound, if_pos awaited]
        refine congrArg _ (State.afterJudged_of_last (x := x) rfl ?_)
        exact last
    · rw [State.fireAnswer_notReady]
      obtain ⟨q, rfl⟩ := State.nextMsg_inbox hm
      exact ⟨fun stopped => congrArg _ (if_pos stopped), fun running => congrArg _ (if_neg (not_not.2 running))⟩
  · rw [execCancelAnswer_of_done hm]
    exact ⟨fun waits => by rw [if_pos waits], fun works => by rw [if_neg works]⟩

end Sys2Proof.Machine
end

section
/-! SUPPORT. The completions of the turn sequencer and the faults reported (R47, R59, R60, R62, R73, R74, R76). -/

namespace Sys2Proof.Machine

/-! ### The platen (R62, R76) -/

theorem execPlatenCompletion_of_work {s t : State} {ok : Bool} (h : s.nextMsg .tsq = some (.platen ok, t))
    (work : s.occ.work = .platen) : exec .platenCompletion s = .next (if ok = false then t.pause .stall
      else if s.occ.stops ≠ [] then t.endStopped else t.runTodo s.occ.todo) := by
  obtain ⟨q, rfl⟩ := State.nextMsg_inbox h
  show execPlatenCompletion s = _
  simp only [execPlatenCompletion, h, work, if_true, Bool.not_eq_true', Occ.stopping_iff]

/-! ### A turn made (R44, R59, R60, R74, R76) -/

/-- The state after a turn made to entry r: the cursor moved with its writes, and the turn counted. -/
def State.turnedTo (s : State) (r : Nat) : State :=
  { s with
    vau := s.vau.moveCursor r
    occ := { s.occ with
      foldoutDone := false, work := .none
      turnsMade := s.occ.turnsMade + 1, turnsLeft := s.occ.turnsLeft - 1 }
    host := s.host.issued .vau (ledgerWrites s.exp.base s.vau (s.vau.moveCursor r) false) }

/-- What the order does after its turn. -/
def State.afterTurn (s : State) : State :=
  if s.occ.stopping then s.endStopped
  else if s.occ.pendingPause = some .cameraFault then s.pause .cameraFault
  else match s.occ.order with
    | some ⟨_, .advance _⟩ => s.startPhase
    | _ => s.endDone

theorem State.turned_eq (s : State) (r : Nat) : s.turned r = (s.turnedTo r).afterTurn := by
  unfold State.turned
  rw [State.changeAccount_writes _ _ _ (skipMark_length ..)]
  rfl

section AfterTurn
variable {s : State}

theorem State.afterTurn_of_stopped (stopped : s.occ.stops ≠ []) : s.afterTurn = s.endStopped :=
  if_pos (s.occ.stopping_iff.2 stopped)

theorem State.afterTurn_of_fault (running : s.occ.stops = []) (fault : s.occ.pendingPause = some .cameraFault) :
    s.afterTurn = s.pause .cameraFault := by
  rw [State.afterTurn, if_neg (s.occ.stopping_iff.not.2 (not_not.2 running)), if_pos fault]

theorem State.afterTurn_of_advance {i : Fin 16} {n : Nat} (running : s.occ.stops = [])
    (sound : s.occ.pendingPause ≠ some .cameraFault) (order : s.occ.order = some ⟨i, .advance n⟩) :
    s.afterTurn = s.startPhase := by
  rw [State.afterTurn, if_neg (s.occ.stopping_iff.not.2 (not_not.2 running)), if_neg sound, order]

theorem State.afterTurn_of_turn {i : Fin 16} (running : s.occ.stops = [])
    (sound : s.occ.pendingPause ≠ some .cameraFault) (order : s.occ.order = some ⟨i, .turn⟩) :
    s.afterTurn = s.endDone [] := by
  rw [State.afterTurn, if_neg (s.occ.stopping_iff.not.2 (not_not.2 running)), if_neg sound, order]

end AfterTurn

theorem execTurnCompletion_of_work {s t : State} {a : TurnReply} (h : s.nextMsg .tsq = some (.turn a, t))
    (work : s.occ.work = .turning) : exec .turnCompletion s = .next (t.turnCompletion a) := by
  obtain ⟨q, rfl⟩ := State.nextMsg_inbox h
  show execTurnCompletion s = _
  simp only [execTurnCompletion, h, work, if_true]

theorem State.turnCompletion_armNotReady (s : State) : s.turnCompletion .armNotReady
    = if s.occ.stops ≠ [] then s.endStopped else s.pause .armNotReady := by
  simp only [← Occ.stopping_iff]
  rfl

/-! ### The faults (R73) -/

/-- A fault is recorded only of an order in flight that has no pause pending. -/
def Occ.TakesFault (o : Occ) : Prop := o.order ≠ none ∧ o.pendingPause = none

theorem Occ.not_takesFault {o : Occ} (h : o.order = none ∨ o.pendingPause ≠ none) : ¬o.TakesFault := by
  rintro ⟨flight, free⟩
  exact h.elim flight (· free)

theorem Occ.takesFault_iff (o : Occ) : (o.order.isSome && o.pendingPause.isNone) = true ↔ o.TakesFault := by
  rw [Bool.and_eq_true, Option.isSome_iff_ne_none, Option.isNone_iff_eq_none]
  rfl

section Faults
variable {s t : State} {c : Chan}

theorem execLampFaultReport_of_taken (h : s.nextMsg .ldu = some (.lampFault, t)) (takes : t.occ.TakesFault) :
    exec .lampFaultReport s = .next { t with occ := { t.occ with pendingPause := some .lampFault } } := by
  show execLampFaultReport s = _
  simp only [execLampFaultReport, h, if_pos (t.occ.takesFault_iff.2 takes)]
  rfl

theorem execLampFaultReport_of_not (h : s.nextMsg .ldu = some (.lampFault, t)) (idle : ¬t.occ.TakesFault) :
    exec .lampFaultReport s = .next t := by
  show execLampFaultReport s = _
  simp only [execLampFaultReport, h, if_neg (t.occ.takesFault_iff.not.2 idle)]

theorem Work.waiting_iff (w : Work) : w.waiting = true ↔
    (∃ x d, w = .roomWait x d) ∨ (∃ x, w = .judging x) ∨ ∃ x, w = .channelWait x := by
  cases w <;> simp [Work.waiting]

theorem State.cameraFault_eq (s : State) : s.cameraFault =
    if s.occ.order.isSome && s.occ.pendingPause.isNone then
      if s.occ.work.waiting then s.pause .cameraFault
      else { s with occ := { s.occ with pendingPause := some .cameraFault } }
    else s := by
  unfold State.cameraFault
  cases s.occ.order <;> cases s.occ.pendingPause <;> rfl

theorem State.cameraFault_of_taken (takes : s.occ.TakesFault) : s.cameraFault =
    if s.occ.work.waiting then s.pause .cameraFault
    else { s with occ := { s.occ with pendingPause := some .cameraFault } } := by
  rw [State.cameraFault_eq, if_pos (s.occ.takesFault_iff.2 takes)]

theorem State.cameraFault_of_not (idle : ¬s.occ.TakesFault) : s.cameraFault = s := by
  rw [State.cameraFault_eq, if_neg (s.occ.takesFault_iff.not.2 idle)]

theorem execCameraFaultReport_of_report (h : s.nextMsg (.cch c) = some (.faulted c, t)) :
    exec (.cameraFaultReport c) s = .next t.cameraFault := by
  show execCameraFaultReport c s = _
  simp only [execCameraFaultReport, h]

end Faults

/-- Settles O38: each completion by what the order does after it, and each report by whether a fault is recorded. -/
theorem turnsAndFaultsReachTheOrder : Obligations.TurnsAndFaultsReachTheOrder := by
  refine ⟨fun s s' work => ⟨fun hm => ?_, fun hm => ?_⟩, fun s s' work => ⟨fun r hm => ?_, fun reason entry hm =>
    execTurnCompletion_of_work hm work, fun hm => execTurnCompletion_of_work hm work, fun hm => ?_⟩,
    fun s s' hm => ?_, fun c s s' hm => ?_⟩
  · rw [execPlatenCompletion_of_work hm work, if_pos rfl]
  · rw [execPlatenCompletion_of_work hm work, if_neg nofun]
    exact ⟨fun stopped => by rw [if_pos stopped], fun running => by rw [if_neg (not_not.2 running)]⟩
  · have turned : exec .turnCompletion s = .next (s'.turnedTo r).afterTurn := by
      rw [execTurnCompletion_of_work hm work, ← State.turned_eq]
      rfl
    rw [turned]
    obtain ⟨q, rfl⟩ := State.nextMsg_inbox hm
    exact ⟨State.turnedTo _ r, rfl, rfl, fun stopped => congrArg _ (State.afterTurn_of_stopped stopped),
      fun running fault => congrArg _ (State.afterTurn_of_fault running fault),
      fun running sound => ⟨fun i n order => congrArg _ (State.afterTurn_of_advance running sound order),
        fun i order => congrArg _ (State.afterTurn_of_turn running sound order)⟩⟩
  · rw [execTurnCompletion_of_work hm work, State.turnCompletion_armNotReady]
    obtain ⟨q, rfl⟩ := State.nextMsg_inbox hm
    exact ⟨fun running => congrArg _ (if_neg (not_not.2 running)), fun stopped => congrArg _ (if_pos stopped)⟩
  · have order : s'.occ.order = s.occ.order := by rw [State.nextMsg_eq hm]
    have pending : s'.occ.pendingPause = s.occ.pendingPause := by rw [State.nextMsg_eq hm]
    rw [← order, ← pending]
    exact ⟨fun flight free => execLampFaultReport_of_taken hm ⟨flight, free⟩,
      fun idle => execLampFaultReport_of_not hm (Occ.not_takesFault idle)⟩
  · have order : s'.occ.order = s.occ.order := by rw [State.nextMsg_eq hm]
    have pending : s'.occ.pendingPause = s.occ.pendingPause := by rw [State.nextMsg_eq hm]
    have work : s'.occ.work = s.occ.work := by rw [State.nextMsg_eq hm]
    rw [execCameraFaultReport_of_report hm, ← order, ← pending, ← work]
    intro waits
    have hwaits : s'.occ.work.waiting = true ↔ waits := Work.waiting_iff _
    refine ⟨fun flight free wait => ?_, fun flight free works => ?_, fun idle => ?_⟩
    · rw [State.cameraFault_of_taken ⟨flight, free⟩, if_pos (hwaits.2 wait)]
    · rw [State.cameraFault_of_taken ⟨flight, free⟩, if_neg (hwaits.not.2 works)]
    · rw [State.cameraFault_of_not (Occ.not_takesFault idle)]

end Sys2Proof.Machine
end

section
/-! SUPPORT. STOP (R75, R76): its answers, and what it does to each piece of the work. -/

namespace Sys2Proof.Machine

theorem execStop_of_order {s t : State} {i : Fin 16} (h : s.nextOrder .occ = some (⟨i, .stop⟩, t)) :
    exec .stop s = .next (t.stopOrder i) := by
  show execStop s = _
  simp only [execStop, h]

section StopOrder
variable {s : State} (i : Fin 16)

/-- With no order in flight a STOP is answered by the volume state. -/
theorem State.stopOrder_of_idle (h : s.occ.order = none) : s.stopOrder i = s.answer i (stopAnswer s.vau.vol) := by
  rw [State.stopOrder, h]

/-- A second STOP joins the first. -/
theorem State.stopOrder_of_second (flight : s.occ.order ≠ none) (stopped : s.occ.stops ≠ []) :
    s.stopOrder i = { s with occ := { s.occ with stops := s.occ.stops ++ [i] } } := by
  obtain ⟨o, order⟩ := Option.ne_none_iff_exists'.1 flight
  simp only [State.stopOrder, order]
  exact if_pos (s.occ.stopping_iff.2 stopped)

/-- The first STOP abandons the awaited judgements and the retake list, and passes to the work. -/
theorem State.stopOrder_of_first (flight : s.occ.order ≠ none) (running : s.occ.stops = []) :
    s.stopOrder i = (State.abandonRetakes { s with
      occ := { s.occ with stops := [i], awaiting := ⟨false, false⟩ } }).stopWork := by
  obtain ⟨o, order⟩ := Option.ne_none_iff_exists'.1 flight
  simp only [State.stopOrder, order]
  exact if_neg (s.occ.stopping_iff.not.2 (not_not.2 running))

end StopOrder

/-! ### The pieces of the work (R75) -/

section StopWork
variable {s : State}

/-- An order that waits, or has no work, ends. -/
theorem State.stopWork_of_wait (h : s.occ.work = .none ∨ (∃ x, s.occ.work = .channelWait x)
    ∨ (∃ x c, s.occ.work = .roomWait x c) ∨ ∃ x, s.occ.work = .judging x) : s.stopWork = s.endStopped := by
  obtain h | ⟨x, h⟩ | ⟨x, c, h⟩ | ⟨x, h⟩ := h <;> rw [State.stopWork, h]

theorem State.stopWork_of_sequencer (h : s.occ.work = .platen ∨ s.occ.work = .turning) :
    s.stopWork = s.toTsq .stop := by
  obtain h | h := h <;> rw [State.stopWork, h]

theorem State.stopWork_of_admission {x : Exposure} (h : s.occ.work = .admitting x) :
    s.stopWork = { s.releaseHeld with ldu := { s.ldu with inbox := s.ldu.inbox ++ [.abandon] } } := by
  obtain ⟨-, n, f, released⟩ := s.releaseHeld_spec
  rw [State.stopWork, h, released]
  rfl

theorem State.stopWork_of_strobe {x : Exposure} (h : s.occ.work = .firing x) : s.stopWork = s.toLdu .abort := by
  rw [State.stopWork, h]

/-- The answers already asked for are let come in. -/
theorem State.stopWork_of_request (h : (∃ x c, s.occ.work = .reserving x c) ∨ (∃ x a b, s.occ.work = .arming x a b)
    ∨ s.occ.work = .cancelling ∨ s.occ.work = .releasing) : s.stopWork = s := by
  obtain ⟨x, c, h⟩ | ⟨x, a, b, h⟩ | h | h := h <;> rw [State.stopWork, h]

end StopWork

/-- Settles O40: the answers by the volume state, and the first STOP by the work in flight over the abandoned retakes. -/
theorem stopActsOnEachPieceOfWork : Obligations.StopActsOnEachPieceOfWork := by
  intro i s s' hq
  have queue := State.nextOrder_eq hq
  have vau : s.vau = s'.vau := by rw [queue]
  have occ : s.occ = s'.occ := by rw [queue]
  have base : s.exp.base = s'.exp.base := by rw [queue]
  have host : s.host = s'.host := by rw [queue]
  have tsq : s.tsq = s'.tsq := by rw [queue]
  have ldu : s.ldu = s'.ldu := by rw [queue]
  rw [execStop_of_order hq, vau, occ, base, host, tsq, ldu]
  refine ⟨fun idle => ?_, fun flight stopped => ?_, fun flight running => ?_⟩
  · rw [State.stopOrder_of_idle i idle]
    refine ⟨fun h => ?_, fun h => ?_, fun h => ?_⟩
    · obtain h | h := h <;> rw [h] <;> rfl
    · rw [h]; rfl
    · obtain h | h := h <;> rw [h] <;> rfl
  · rw [State.stopOrder_of_second i flight stopped]
  rw [State.stopOrder_of_first i flight running]
  obtain ⟨m, abandoned, rejected⟩ := State.abandonRetakes_spec { s' with
    occ := { s'.occ with stops := [i], awaiting := ⟨false, false⟩ } }
  generalize State.abandonRetakes _ = u at abandoned ⊢
  have work : s'.occ.work = u.occ.work := by rw [abandoned]
  have held : s'.occ.held = u.occ.held := by rw [abandoned]
  have tsq' : s'.tsq = u.tsq := by rw [abandoned]
  have ldu' : s'.ldu = u.ldu := by rw [abandoned]
  have fbk : s.fbk = u.fbk := by rw [abandoned, queue]
  obtain ⟨none, free⟩ := u.releaseHeld_released
  rw [work, held, tsq', ldu', fbk]
  refine ⟨u, by rw [abandoned], by rw [abandoned], fun e x hx => ?_, fun h => congrArg _ (State.stopWork_of_wait h),
    fun h => congrArg _ (State.stopWork_of_sequencer h),
    fun x h => ⟨_, rfl, none, free, congrArg _ (State.stopWork_of_admission h)⟩,
    fun x h => congrArg _ (State.stopWork_of_strobe h), fun h => congrArg _ (State.stopWork_of_request h)⟩
  obtain ⟨y, hy, listed⟩ := rejected e x hx
  have ⟨same, _⟩ := listed
  exact ⟨y, by rw [abandoned]; exact hy, same, fun side => listed.status side⟩

end Sys2Proof.Machine
end


section
/-! SUPPORT. What the law of the interlock speaks of (R77, R80, R98, R116): the sequencer and the light unit without
their messages, the retired banks, the doses and the fall that waits.
The operations of the other blocks leave it as it is. -/

namespace Sys2Proof.Machine

/-- The sequencer and the light unit. -/
structure InterlockView where
  tsq : Tsq
  ldu : Ldu

/-- What the law of the interlock speaks of, as it stands in a state. -/
def State.interlockView (s : State) : InterlockView :=
  ⟨{ s.tsq with inbox := [] },
    { s.ldu with retired := 0, sideDose := [], volDose := 0, fall := false, inbox := [] }⟩

theorem State.Kept.interlockView {s t : State} (h : State.Kept s t) : t.interlockView = s.interlockView := by
  rw [State.interlockView, h.tsq, h.ldu]; rfl

theorem State.Issued.interlockView {s t : State} (h : State.Issued s t) : t.interlockView = s.interlockView :=
  h.kept.interlockView

/-! ### Writes, messages, channels and banks -/

@[simp] theorem State.answer_interlockView (s : State) (i : Fin 16) (k : AnswerCode) (f : List FieldVal) :
    (s.answer i k f).interlockView = s.interlockView := rfl
@[simp] theorem State.land_interlockView (s : State) (p : HostWrite → Bool) :
    (s.land p).interlockView = s.interlockView := rfl
@[simp] theorem State.landVau_interlockView (s : State) (n : Nat) :
    (s.landVau n).interlockView = s.interlockView := rfl
@[simp] theorem State.landBody_interlockView (s : State) (c : Chan) :
    (s.landBody c).interlockView = s.interlockView := rfl
@[simp] theorem State.toOcc_interlockView (s : State) (m : OccMsg) :
    (s.toOcc m).interlockView = s.interlockView := rfl
@[simp] theorem State.setCch_interlockView (s : State) (c : Chan) (x : Cch) :
    (s.setCch c x).interlockView = s.interlockView := rfl
@[simp] theorem State.setFbk_interlockView (s : State) (c : Chan) (f : Fbk) :
    (s.setFbk c f).interlockView = s.interlockView := rfl
@[simp] theorem State.dropFbk_interlockView (s : State) (c : Chan) (l : List FbkMsg) :
    (s.dropFbk c l).interlockView = s.interlockView := rfl
@[simp] theorem State.report_interlockView (s : State) (j : Judgement) :
    (s.report j).interlockView = s.interlockView := rfl
@[simp] theorem State.issue_interlockView (s : State) (w : Writer) (a : Nat) (b : List Byte) :
    (s.issue w a b).interlockView = s.interlockView := rfl
@[simp] theorem State.issueResult_interlockView (s : State) (c : Chan) (d : Reservation) (r : Result) :
    (s.issueResult c d r).interlockView = s.interlockView := rfl
@[simp] theorem State.arm_interlockView (s : State) (c : Chan) (q : ArmReq) :
    (s.arm c q).interlockView = s.interlockView := rfl
@[simp] theorem State.releaseDesc_interlockView (s : State) (c : Chan) (b : BankId) (i : Fin 4) :
    (s.releaseDesc c b i).interlockView = s.interlockView := (State.releaseDesc_banked ..).kept.interlockView
@[simp] theorem State.fillDesc_interlockView (s : State) (c : Chan) (b : BankId) (i : Fin 4) (r : Bool) :
    (s.fillDesc c b i r).interlockView = s.interlockView := (State.fillDesc_banked ..).kept.interlockView
@[simp] theorem State.seek_interlockView (s : State) (c : Chan) : (s.seek c).interlockView = s.interlockView :=
  (State.seek_kept s c).interlockView
@[simp] theorem State.pollWait_interlockView (s : State) : s.pollWait.interlockView = s.interlockView :=
  (State.pollWait_kept s).interlockView
@[simp] theorem State.grantOf_interlockView (s : State) (c : Chan) (a b : Bool) :
    (s.grantOf c a b).interlockView = s.interlockView := by rw [State.grantOf_eq]; rfl

theorem State.nextOrder_interlockView {s t : State} {o : Owner} {d : Dispatched} (h : s.nextOrder o = some (d, t)) :
    t.interlockView = s.interlockView := (State.nextOrder_kept h).interlockView

/-! ### The camera channels (chapter 7) -/

@[simp] theorem State.endFrame_interlockView (s : State) (c : Chan) (ok : Bool) :
    (s.endFrame c ok).interlockView = s.interlockView := by
  unfold State.endFrame
  dsimp only
  split
  · rfl
  · split <;> simp

@[simp] theorem State.startMark_interlockView (s : State) (c : Chan) :
    (s.startMark c).interlockView = s.interlockView := by
  unfold State.startMark
  dsimp only
  split <;> simp

@[simp] theorem State.takeByte_interlockView (s : State) (c : Chan) (b : Byte) :
    (s.takeByte c b).interlockView = s.interlockView := by
  unfold State.takeByte
  dsimp only
  split
  · split <;> simp
  · rfl

@[simp] theorem State.loseTake_interlockView (s : State) (c : Chan) (t : TakeRec) :
    (s.loseTake c t).interlockView = s.interlockView := by
  unfold State.loseTake
  dsimp only
  split <;> simp

@[simp] theorem State.cutTake_interlockView (s : State) (c : Chan) (t : TakeRec) :
    (s.cutTake c t).interlockView = s.interlockView := by simp [State.cutTake]

/-! ### The orders of VAU and PFS (chapters 1 to 3) -/

@[simp] theorem State.startOpens_interlockView (s : State) (l : List (Fin 16)) :
    (s.startOpens l).interlockView = s.interlockView := by
  induction l generalizing s with
  | nil => rfl
  | cons i l ih =>
    unfold State.startOpens
    split
    · rfl
    · rw [ih]; rfl

@[simp] theorem State.endOpen_interlockView (s : State) (i : Fin 16) (k : AnswerCode) (f : List FieldVal) :
    (s.endOpen i k f).interlockView = s.interlockView := by simp [State.endOpen]

@[simp] theorem State.startLoads_interlockView (s : State) (l : List (Fin 16)) :
    (s.startLoads l).interlockView = s.interlockView := by
  induction l generalizing s with
  | nil => rfl
  | cons i l ih =>
    unfold State.startLoads
    split
    · rfl
    · rw [ih]; rfl

@[simp] theorem State.endLoad_interlockView (s : State) (i : Fin 16) (k : AnswerCode) (f : List FieldVal) :
    (s.endLoad i k f).interlockView = s.interlockView := by simp [State.endLoad]

/-- The doses of the light unit are set, and no other item of it (R32). -/
@[simp] theorem State.setUp_interlockView (s : State) (d : Nat) : (s.setUp d).interlockView = s.interlockView := by
  rw [State.setUp_eq]; rfl

@[simp] theorem State.resume_interlockView (s : State) (i : Fin 16) (h : HeaderRead) (b : List Byte) :
    (s.resume i h b).interlockView = s.interlockView := by rw [State.resume_eq]; rfl

@[simp] theorem State.amend_interlockView (s : State) (i : Fin 16) (e k : Nat) :
    (s.amend i e k).interlockView = s.interlockView := by
  have changed (k : Kind) : (s.changeAccount (fun v => v.amend e k) true).interlockView = s.interlockView :=
    (State.changeAccount_kept ..).interlockView
  unfold State.amend
  dsimp only
  repeat' split
  all_goals first | rfl | exact changed _

@[simp] theorem State.handDone_interlockView (s : State) (i : Fin 16) (r c : Nat) :
    (s.handDone i r c).interlockView = s.interlockView := by
  unfold State.handDone
  split
  · rfl
  · rfl
  · split
    · rfl
    · split
      · rfl
      · rw [State.acceptHandDone_eq]; rfl
  · rfl

@[simp] theorem State.closeVolume_interlockView (s : State) (i : Fin 16) (f : Bool) :
    (s.closeVolume i f).interlockView = s.interlockView := by
  unfold State.closeVolume
  repeat' split
  all_goals rfl

end Sys2Proof.Machine
end

section
/-! SUPPORT. The commands that leave the sequencer and the light unit as they are, one lemma each; those of the opening
cycle keep them by `State.Kept`. -/

namespace Sys2Proof.Machine

section AsideCommands
variable {s t : State}

/-! The exchange port (chapter 10). -/

theorem execPost_interlockView {v : Word32} (h : execPost v s = .next t) : t.interlockView = s.interlockView := by
  rw [← next_inj h]; rfl

theorem execAck_interlockView {v : Word32} (h : execAck v s = .next t) : t.interlockView = s.interlockView := by
  rw [← next_inj h]; rfl

theorem execNoteClear_interlockView {v : Word32} (h : execNoteClear v s = .next t) :
    t.interlockView = s.interlockView := by rw [← next_inj h]; rfl

theorem execNoteMaskWrite_interlockView {v : Word32} (h : execNoteMaskWrite v s = .next t) :
    t.interlockView = s.interlockView := by rw [← next_inj h]; rfl

theorem execBaseWrite_interlockView {v : Word32} (h : execBaseWrite v s = .next t) :
    t.interlockView = s.interlockView := by rw [← next_inj h]; rfl

theorem execGrant_interlockView {v : Word32} (h : execGrant v s = .next t) : t.interlockView = s.interlockView := by
  rw [← next_inj h]; simp

theorem execSlotReadComplete_interlockView {b : List Byte} (h : execSlotReadComplete b s = .next t) :
    t.interlockView = s.interlockView := by
  rw [← next_inj h]
  split
  · rfl
  · dsimp only
    split <;> rfl

theorem execAnswerWriteComplete_interlockView {i : Fin 16} (h : execAnswerWriteComplete i s = .next t) :
    t.interlockView = s.interlockView := by
  rw [← next_inj h]
  split <;> rfl

/-! LOAD TABLES and the side band (chapters 1 and 9). -/

theorem execLoadTables_interlockView (h : execLoadTables s = .next t) : t.interlockView = s.interlockView := by
  rw [← next_inj h]
  split
  · rfl
  · next hq =>
    have queue := State.nextOrder_interlockView hq
    split
    · exact queue
    · rw [State.startLoads_interlockView, queue]

theorem execTableImagesRead_interlockView {b : List Byte} (h : execTableImagesRead b s = .next t) :
    t.interlockView = s.interlockView := by
  rw [← next_inj h]
  split
  · split
    · simp
    · split
      · rfl
      · simp
  · rfl

theorem execSidebandSlotsClear_interlockView {c : Chan} (h : execSidebandSlotsClear c s = .next t) :
    t.interlockView = s.interlockView := by
  rw [← next_inj h]
  split
  · split
    · dsimp only
      split
      · simp
      · rfl
    · rfl
  · rfl

theorem execSideband_interlockView {c : Chan} {ty k : Byte} {p : List Byte} (h : execSideband c ty p k s = .next t) :
    t.interlockView = s.interlockView := by
  rw [← next_inj h]
  split <;> simp

theorem execSidebandMalformed_interlockView {c : Chan} {ty n : Byte} (h : execSidebandMalformed c ty n s = .next t) :
    t.interlockView = s.interlockView := by rw [← next_inj h, State.startMark_interlockView]

theorem execReadSideband_interlockView (h : execReadSideband s = .next t) : t.interlockView = s.interlockView := by
  rw [← next_inj h]
  split
  · rfl
  · next hq =>
    have queue := State.nextOrder_interlockView hq
    split <;> exact queue

theorem execSidebandCopy_interlockView {c : Chan} (h : execSidebandCopy c s = .next t) :
    t.interlockView = s.interlockView := by
  rw [← next_inj h]
  split
  · split <;> rfl
  · rfl

theorem execSidebandReportWritten_interlockView {c : Chan} (h : execSidebandReportWritten c s = .next t) :
    t.interlockView = s.interlockView := by
  rw [← next_inj h]
  split
  · split
    · dsimp only
      split <;> rfl
    · rfl
  · rfl

/-! The orders of VAU (chapters 2 and 3). -/

theorem execOpenVolume_interlockView (h : execOpenVolume s = .next t) : t.interlockView = s.interlockView := by
  rw [← next_inj h]
  split
  · next hq =>
    have queue := State.nextOrder_interlockView hq
    split
    · exact queue
    · rw [State.startOpens_interlockView, queue]
  · rfl

theorem execSheetHeaderRead_interlockView {b : List Byte} (h : execSheetHeaderRead b s = .next t) :
    t.interlockView = s.interlockView := by
  rw [← next_inj h]
  split
  · dsimp only
    split
    · rfl
    · simp
  · rfl

theorem execPlanRead_interlockView {b r : List Byte} (h : execPlanRead b r s = .next t) :
    t.interlockView = s.interlockView := by
  rw [← next_inj h]
  split
  · split
    · simp
    split
    · simp
    split
    · simp
    split
    · simp
    dsimp only
    split
    · rw [State.freshLedger_eq]; rfl
    · rw [State.resumeLedger_eq]; rfl
  · rfl

theorem execLedgerReadComplete_interlockView {b l : List Byte} (h : execLedgerReadComplete b l s = .next t) :
    t.interlockView = s.interlockView := by
  rw [← next_inj h]
  split
  · simp
  · rfl

theorem execOpeningWritesComplete_interlockView (h : execOpeningWritesComplete s = .next t) :
    t.interlockView = s.interlockView := by
  rw [← next_inj h]
  split
  · rw [State.endOpen_interlockView, (State.enterRest_kept ..).interlockView, State.setUp_interlockView,
      State.landVau_interlockView]
  · rfl

theorem execAmend_interlockView (h : execAmend s = .next t) : t.interlockView = s.interlockView := by
  rw [← next_inj h]
  split
  · next hq => rw [State.amend_interlockView, State.nextOrder_interlockView hq]
  · rfl

theorem execAmendWritesComplete_interlockView (h : execAmendWritesComplete s = .next t) :
    t.interlockView = s.interlockView := by
  rw [← next_inj h]
  split <;> rfl

theorem execHandDone_interlockView (h : execHandDone s = .next t) : t.interlockView = s.interlockView := by
  rw [← next_inj h]
  split
  · next hq => rw [State.handDone_interlockView, State.nextOrder_interlockView hq]
  · rfl

theorem execHandDoneWritesComplete_interlockView (h : execHandDoneWritesComplete s = .next t) :
    t.interlockView = s.interlockView := by
  rw [← next_inj h]
  split <;> rfl

theorem execCloseVolume_interlockView (h : execCloseVolume s = .next t) : t.interlockView = s.interlockView := by
  rw [← next_inj h]
  split
  · next hq => rw [State.closeVolume_interlockView, State.nextOrder_interlockView hq]
  · rfl

theorem execClosingWriteComplete_interlockView (h : execClosingWriteComplete s = .next t) :
    t.interlockView = s.interlockView := by
  rw [← next_inj h]
  split
  · rfl
  split
  · rfl
  dsimp only
  split
  · rfl
  · rfl
  · rfl
  · rw [State.endClosing_eq]; rfl

/-! The frame banks (chapter 8). -/

theorem execReservationRequest_interlockView {c : Chan} (h : execReservationRequest c s = .next t) :
    t.interlockView = s.interlockView := by
  rw [← next_inj h]
  split
  · dsimp only
    split <;> simp
  · rfl

theorem execDescriptorReadComplete_interlockView {c : Chan} {b : List Byte}
    (h : execDescriptorReadComplete c b s = .next t) : t.interlockView = s.interlockView := by
  rw [← next_inj h]
  dsimp only
  split
  · split <;> simp
  · rfl

theorem execUnusableWriteComplete_interlockView {c : Chan} (h : execUnusableWriteComplete c s = .next t) :
    t.interlockView = s.interlockView := by
  rw [← next_inj h]
  split
  · simp
  · rfl

theorem execReleaseRequest_interlockView {c : Chan} (h : execReleaseRequest c s = .next t) :
    t.interlockView = s.interlockView := by
  rw [← next_inj h]
  split
  · simp
  · rfl

theorem execDescriptorFilled_interlockView {c : Chan} (h : execDescriptorFilled c s = .next t) :
    t.interlockView = s.interlockView := by
  rw [← next_inj h]
  split
  · dsimp only
    split <;> simp
  · rfl

/-! The camera channels (chapter 7). -/

theorem execArmRequest_interlockView {c : Chan} (h : execArmRequest c s = .next t) :
    t.interlockView = s.interlockView := by
  rw [← next_inj h]
  split
  · rfl
  · dsimp only
    split <;> simp

theorem execEndOfExposureNotice_interlockView {c : Chan} (h : execEndOfExposureNotice c s = .next t) :
    t.interlockView = s.interlockView := by
  rw [← next_inj h]
  dsimp only
  split
  · rfl
  · split <;> simp

theorem execFrameHeader_interlockView {c : Chan} {i : BitVec 16} {n : Word32}
    (h : execFrameHeader c i n s = .next t) : t.interlockView = s.interlockView := by
  rw [← next_inj h]; simp

theorem execBodyByte_interlockView {c : Chan} {b : Byte} (h : execBodyByte c b s = .next t) :
    t.interlockView = s.interlockView := by
  rw [← next_inj h]
  dsimp only
  split
  · split <;> simp
  · split <;> simp
  · rfl

theorem execFrameTrailer_interlockView {c : Chan} {k : Word32} (h : execFrameTrailer c k s = .next t) :
    t.interlockView = s.interlockView := by
  rw [← next_inj h]
  dsimp only
  split
  · split <;> simp
  · split <;> simp
  · rfl

theorem execStartMark_interlockView {c : Chan} (h : execStartMark c s = .next t) :
    t.interlockView = s.interlockView := by rw [← next_inj h, State.startMark_interlockView]

theorem execResultWriteComplete_interlockView {c : Chan} (h : execResultWriteComplete c s = .next t) :
    t.interlockView = s.interlockView := by
  rw [← next_inj h]
  dsimp only
  split
  · split
    · rfl
    · rw [State.pollWait_interlockView]; rfl
  · rfl

theorem execFrameWatchExpiry_interlockView {c : Chan} (h : execFrameWatchExpiry c s = .next t) :
    t.interlockView = s.interlockView := by
  rw [← next_inj h]
  dsimp only
  split
  · split
    · rw [State.pollWait_interlockView]
      split <;> simp
    · rfl
  · rfl

end AsideCommands

end Sys2Proof.Machine
end

section
/-! SUPPORT. The sequencer's part of the law of the interlock (R77, R80, R81): a sequencer at rest, one in a stage of a
turn, and each operation of chapter 5 on them. -/

namespace Sys2Proof.Machine

/-! ### The law at the sequencer -/

/-- The sequencer's part of the law of the interlock, with the banks lit or dark. -/
structure Tsq.Guarded (t : Tsq) (lit : Bool) : Prop where
  coherent : t.Coherent
  motion : ∀ g, t.stage = some g → g ≠ .waitDark → t.ready = false
  watched : t.stageWatch.isSome → t.ready = false
  dark : lit = true → t.stage = none ∨ t.stage = some .waitDark ∨ t.stage = some .platenDown

theorem State.interlockLaw_iff (s : State) : s.InterlockLaw ↔ s.tsq.Guarded s.ldu.bankLit ∧ s.ldu.Coherent :=
  ⟨fun h => ⟨⟨h.tsq, h.motion, h.watched, h.dark⟩, h.ldu⟩,
    fun ⟨h, hl⟩ => ⟨h.coherent, hl, h.motion, h.watched, h.dark⟩⟩

theorem Tsq.ready_eq_false_of_arm {t : Tsq} (h : t.arm ≠ .parked) : t.ready = false := by simp [Tsq.ready, h]

theorem Tsq.ready_eq_false_of_platen {t : Tsq} (down : t.platen ≠ .down) (contact : t.platen ≠ .contact) :
    t.ready = false := by simp [Tsq.ready, down, contact]

/-- The signal rests on the arm and the platen alone (R80). -/
theorem Tsq.ready_congr {t u : Tsq} (arm : u.arm = t.arm) (platen : u.platen = t.platen) : u.ready = t.ready := by
  simp only [Tsq.ready, arm, platen]

/-- With nothing in flight the relay is all that the law asks about. -/
theorem Tsq.Guarded.of_rest {t : Tsq} (relay : t.relayOpen = true ↔ t.arm = .dead) (work : t.work = .none)
    (stage : t.stage = none) (watch : t.stageWatch = none) (cut : t.cutWatch = none) (lit : Bool) : t.Guarded lit where
  coherent := {
    relay := relay
    dead := fun _ => .inl work
    idle := fun _ => ⟨stage, watch, cut⟩
    turn := fun _ _ h => nomatch work.symm.trans h
    wait := fun h => nomatch stage.symm.trans h
    park := fun _ h => nomatch work.symm.trans h
    platen := fun h => nomatch work.symm.trans h
    cut := fun h => by rw [cut] at h; cases h }
  motion := fun _ h => nomatch stage.symm.trans h
  watched := fun h => by rw [watch] at h; cases h
  dark := fun _ => .inl stage

/-- A turn in stage g: the arm has its power, the signal is down while the stage moves, and no bank is lit but in
PLATEN_DOWN. -/
structure Tsq.InTurn (t : Tsq) (lit : Bool) (g : Stage) : Prop where
  work : ∃ c r, t.work = .turn c r
  stage : t.stage = some g
  relay : t.relayOpen = false
  power : t.arm ≠ .dead
  away : t.ready = false
  cut : t.cutWatch.isSome → g = .retract
  dark : lit = true → g = .platenDown
  moves : g ≠ .waitDark

/-- A stage other than PLATEN_DOWN is a turn's. -/
theorem Tsq.Coherent.turn_of_stage {t : Tsq} (h : t.Coherent) {g : Stage} (stage : t.stage = some g)
    (own : g ≠ .platenDown) : ∃ c r, t.work = .turn c r := by
  cases work : t.work with
  | none => exact nomatch (h.idle work).1.symm.trans stage
  | turn c r => exact ⟨c, r, rfl⟩
  | platen => exact absurd (Option.some.inj ((h.platen work).1.symm.trans stage)).symm own
  | park i => exact nomatch (h.park i work).1.symm.trans stage

/-- The cut-delay watch runs in a retract alone (R94). -/
theorem Tsq.Coherent.cut_none {t : Tsq} (h : t.Coherent) {g : Stage} (stage : t.stage = some g)
    (other : g ≠ .retract) : t.cutWatch = none := by
  cases cut : t.cutWatch with
  | none => rfl
  | some n => exact absurd (Option.some.inj (stage.symm.trans (h.cut (by rw [cut]; rfl)))) other

/-- A turn or a PARK in flight has the power of the arm. -/
theorem Tsq.Coherent.power {t : Tsq} (h : t.Coherent) (busy : t.work ≠ .none) (own : t.work ≠ .platen) :
    t.relayOpen = false ∧ t.arm ≠ .dead := by
  have power : t.arm ≠ .dead := fun dead => (h.dead dead).elim busy own
  exact ⟨Bool.eq_false_iff.2 fun relay => power (h.relay.1 relay), power⟩

theorem Tsq.Coherent.turn_power {t : Tsq} (h : t.Coherent) {c r : Nat} (work : t.work = .turn c r) :
    t.relayOpen = false ∧ t.arm ≠ .dead := h.power (by rw [work]; exact nofun) (by rw [work]; exact nofun)

theorem Tsq.Guarded.inTurn {t : Tsq} {lit : Bool} (h : t.Guarded lit) {c r : Nat} {g : Stage}
    (work : t.work = .turn c r) (stage : t.stage = some g) (moves : g ≠ .waitDark) : t.InTurn lit g where
  work := ⟨c, r, work⟩
  stage := stage
  relay := (h.coherent.turn_power work).1
  power := (h.coherent.turn_power work).2
  away := h.motion g stage moves
  cut := fun k => Option.some.inj (stage.symm.trans (h.coherent.cut k))
  dark := fun on => by
    obtain k | k | k := h.dark on
    · exact nomatch stage.symm.trans k
    · exact absurd (Option.some.inj (stage.symm.trans k)) moves
    · exact Option.some.inj (stage.symm.trans k)
  moves := moves

theorem Tsq.InTurn.guarded {t : Tsq} {lit : Bool} {g : Stage} (h : t.InTurn lit g) : t.Guarded lit := by
  obtain ⟨c, r, work⟩ := h.work
  exact {
    coherent := {
      relay := ⟨fun k => absurd (h.relay.symm.trans k) nofun, fun k => absurd k h.power⟩
      dead := fun k => absurd k h.power
      idle := fun k => nomatch work.symm.trans k
      turn := fun _ _ _ k => nomatch h.stage.symm.trans k
      wait := fun k => absurd (Option.some.inj (h.stage.symm.trans k)) h.moves
      park := fun _ k => nomatch work.symm.trans k
      platen := fun k => nomatch work.symm.trans k
      cut := fun k => by rw [h.stage, h.cut k] }
    motion := fun _ _ _ => h.away
    watched := fun _ => h.away
    dark := fun on => by rw [h.stage, h.dark on]; exact .inr (.inr rfl) }

/-- The next stage of a turn, with the arm and the platen as they are:
from one stage that runs in the dark to another. -/
theorem Tsq.Guarded.next {t u : Tsq} {lit : Bool} {g g' : Stage} (h : t.Guarded lit) (stage : t.stage = some g)
    (moves : g ≠ .waitDark) (dark : g ≠ .platenDown) (other : g ≠ .retract) (stage' : u.stage = some g')
    (moves' : g' ≠ .waitDark) (work : u.work = t.work := by rfl) (relay : u.relayOpen = t.relayOpen := by rfl)
    (arm : u.arm = t.arm := by rfl) (platen : u.platen = t.platen := by rfl)
    (cut : u.cutWatch = t.cutWatch := by rfl) : u.Guarded lit := by
  obtain ⟨c, r, turn⟩ := h.coherent.turn_of_stage stage dark
  have now := h.inTurn turn stage moves
  exact Tsq.InTurn.guarded (g := g') {
    work := ⟨c, r, work.trans turn⟩
    stage := stage'
    relay := relay.trans now.relay
    power := by rw [arm]; exact now.power
    away := (Tsq.ready_congr arm platen).trans now.away
    cut := fun k => absurd (now.cut (cut ▸ k)) other
    dark := fun on => absurd (now.dark on) dark
    moves := moves' }

/-- Work ended with the arm where the relay agrees with it. -/
theorem Tsq.endWork_guarded {t : Tsq} (relay : t.relayOpen = true ↔ t.arm = .dead) (lit : Bool) :
    t.endWork.Guarded lit := .of_rest (t := t.endWork) relay rfl rfl rfl rfl lit

/-- A change of the switches, the sensor, the counters or the vacuum is not seen by the law. -/
theorem Tsq.Guarded.congr {t u : Tsq} {lit : Bool} (h : t.Guarded lit) (arm : u.arm = t.arm := by rfl)
    (platen : u.platen = t.platen := by rfl) (relay : u.relayOpen = t.relayOpen := by rfl)
    (work : u.work = t.work := by rfl) (stage : u.stage = t.stage := by rfl)
    (watch : u.stageWatch = t.stageWatch := by rfl) (cut : u.cutWatch = t.cutWatch := by rfl) : u.Guarded lit where
  coherent := by
    obtain ⟨c, -, -, -⟩ := h
    exact ⟨by rw [relay, arm]; exact c.relay, by rw [arm, work]; exact c.dead,
      by rw [work, stage, watch, cut]; exact c.idle, by rw [work, stage]; exact c.turn,
      by rw [stage, watch]; exact c.wait, by rw [work, stage, cut]; exact c.park,
      by rw [work, stage, cut]; exact c.platen, by rw [stage, cut]; exact c.cut⟩
  motion := by rw [stage, Tsq.ready_congr arm platen]; exact h.motion
  watched := by rw [watch, Tsq.ready_congr arm platen]; exact h.watched
  dark := by rw [stage]; exact h.dark

/-! ### The operations of chapter 5 -/

section Operations
variable {s : State} {lit : Bool}

@[simp] theorem State.answerTurn_ldu (s : State) (r : TurnReply) : (s.answerTurn r).ldu = s.ldu := rfl
@[simp] theorem State.stallTurn_ldu (s : State) : s.stallTurn.ldu = s.ldu := rfl
@[simp] theorem State.holdArm_ldu (s : State) : s.holdArm.ldu = s.ldu := rfl
@[simp] theorem State.cutArm_ldu (s : State) : s.cutArm.ldu = s.ldu := rfl
@[simp] theorem State.acceptTurn_ldu (s : State) (c : Nat) : (s.acceptTurn c).ldu = s.ldu := rfl

@[simp] theorem State.finishDown_ldu (s : State) : s.finishDown.ldu = s.ldu := by
  unfold State.finishDown
  split
  · rfl
  · split
    · rfl
    · split <;> rfl
  · rfl

@[simp] theorem State.arriveDown_ldu (s : State) (p : Platen) : (s.arriveDown p).ldu = s.ldu := by
  simp [State.arriveDown]

@[simp] theorem State.beginPlatenDown_ldu (s : State) : s.beginPlatenDown.ldu = s.ldu := by
  unfold State.beginPlatenDown
  dsimp only
  split
  · simp
  · split <;> simp

@[simp] theorem State.failAttempt_ldu (s : State) (r : Nat) (x : LiftReading) : (s.failAttempt r x).ldu = s.ldu :=
  (State.changeAccount_issued ..).ldu

@[simp] theorem State.dropLeaf_ldu (s : State) (r : Nat) : (s.dropLeaf r).ldu = s.ldu :=
  (State.changeAccount_issued ..).ldu

@[simp] theorem State.armStall_ldu (s : State) : s.armStall.ldu = s.ldu := by
  unfold State.armStall
  split <;> rfl

@[simp] theorem State.platenStall_ldu (s : State) : s.platenStall.ldu = s.ldu := by
  unfold State.platenStall
  dsimp only
  split <;> rfl

@[simp] theorem State.stageExpired_ldu (s : State) : s.stageExpired.ldu = s.ldu := by
  unfold State.stageExpired
  split
  · rfl
  · simp
  · simp
  · split <;> rfl
  · simp

@[simp] theorem State.stopTurn_ldu (s : State) (g : Stage) : (s.stopTurn g).ldu = s.ldu := by
  unfold State.stopTurn
  split
  case h_7 => split <;> rfl
  all_goals simp

@[simp] theorem State.endRelease_ldu (s : State) (r : Nat) : (s.endRelease r).ldu = s.ldu := by
  unfold State.endRelease
  split <;> rfl

@[simp] theorem State.park_ldu (s : State) (i : Fin 16) (release : Bool) : (s.park i release).ldu = s.ldu := by
  unfold State.park
  dsimp only
  repeat' split
  all_goals rfl

@[simp] theorem State.armRestore_ldu (s : State) (i : Fin 16) : (s.armRestore i).ldu = s.ldu := by
  unfold State.armRestore
  repeat' split
  all_goals rfl

/-- The end of PLATEN_DOWN ends the work it belongs to (R87, R89). -/
theorem State.finishDown_tsq (work : s.tsq.work = .platen ∨ ∃ c r, s.tsq.work = .turn c r) :
    s.finishDown.tsq = s.tsq.endWork := by
  unfold State.finishDown
  obtain work | ⟨c, r, work⟩ := work <;> rw [work]
  · rfl
  · dsimp only
    split
    · rfl
    · split <;> rfl

theorem State.arriveDown_tsq (work : s.tsq.work = .platen ∨ ∃ c r, s.tsq.work = .turn c r) (p : Platen) :
    (s.arriveDown p).tsq = { s.tsq with platen := p }.endWork :=
  State.finishDown_tsq (s := s.setTsq { s.tsq with platen := p, stageWatch := none }) work

theorem State.arriveDown_guarded (relay : s.tsq.relayOpen = true ↔ s.tsq.arm = .dead)
    (work : s.tsq.work = .platen ∨ ∃ c r, s.tsq.work = .turn c r) (p : Platen) :
    (s.arriveDown p).tsq.Guarded lit := by
  rw [State.arriveDown_tsq work]
  exact Tsq.endWork_guarded (t := { s.tsq with platen := p }) relay lit

/-- PLATEN_DOWN, of a platen request or of a turn, may run with a bank lit (R81, R89, R90). -/
theorem State.beginPlatenDown_guarded (relay : s.tsq.relayOpen = true ↔ s.tsq.arm = .dead)
    (cut : s.tsq.cutWatch = none) (work : s.tsq.work = .platen ∨ ∃ c r, s.tsq.work = .turn c r)
    (power : s.tsq.work ≠ .platen → s.tsq.arm ≠ .dead) : s.beginPlatenDown.tsq.Guarded lit := by
  unfold State.beginPlatenDown
  dsimp only
  split
  · apply State.arriveDown_guarded
    exacts [relay, work]
  split
  · apply State.arriveDown_guarded
    exacts [relay, work]
  obtain platen | ⟨c, r, turn⟩ := work
  · exact {
      coherent := {
        relay := relay
        dead := fun _ => .inr platen
        idle := fun k => nomatch platen.symm.trans k
        turn := fun _ _ k => nomatch platen.symm.trans k
        wait := nofun
        park := fun _ k => nomatch platen.symm.trans k
        platen := fun _ => ⟨rfl, cut⟩
        cut := fun k => absurd k (by simp [cut]) }
      motion := fun _ _ _ => Tsq.ready_eq_false_of_platen nofun nofun
      watched := fun _ => Tsq.ready_eq_false_of_platen nofun nofun
      dark := fun _ => .inr (.inr rfl) }
  · have powered := power (by rw [turn]; exact nofun)
    exact Tsq.InTurn.guarded (g := .platenDown) {
      work := ⟨c, r, turn⟩
      stage := rfl
      relay := Bool.eq_false_iff.2 fun k => powered (relay.1 k)
      power := powered
      away := Tsq.ready_eq_false_of_platen nofun nofun
      cut := fun k => absurd k (by simp [cut])
      dark := fun _ => rfl
      moves := nofun }

/-- PLATEN_UP and REACH run in the dark (R81, R82). -/
theorem Tsq.beginPlatenUp_guarded {t : Tsq} {c r : Nat} (work : t.work = .turn c r) (relay : t.relayOpen = false)
    (power : t.arm ≠ .dead) (cut : t.cutWatch = none) (p : Profile) : (t.beginPlatenUp p).Guarded false := by
  unfold Tsq.beginPlatenUp
  split
  · exact Tsq.InTurn.guarded (g := .reach) ⟨⟨c, r, work⟩, rfl, relay, nofun,
      Tsq.ready_eq_false_of_arm nofun, fun k => absurd k (by simp [Tsq.beginReach, cut]), nofun, nofun⟩
  · exact Tsq.InTurn.guarded (g := .platenUp) ⟨⟨c, r, work⟩, rfl, relay, power,
      Tsq.ready_eq_false_of_platen nofun nofun, fun k => absurd k (by simp [cut]), nofun, nofun⟩

end Operations

end Sys2Proof.Machine
end

section
/-! SUPPORT. Each command of the sequencer under the law of the interlock (R80, R81, R89, R92 to R97). -/

namespace Sys2Proof.Machine

/-- A step that keeps the law of the interlock and lights no bank. -/
structure State.Interlocked (s t : State) : Prop where
  law : s.InterlockLaw → t.InterlockLaw
  dark : s.ldu.bankLit = false → t.ldu.bankLit = false

theorem State.Interlocked.refl (s : State) : State.Interlocked s s := ⟨id, id⟩

theorem State.Interlocked.trans {s t u : State} (h : State.Interlocked s t) (k : State.Interlocked t u) :
    State.Interlocked s u := ⟨k.law ∘ h.law, k.dark ∘ h.dark⟩

theorem State.interlocked_of_view {s t : State} (h : t.interlockView = s.interlockView) : State.Interlocked s t := by
  have tsq {α : Type} (f : Tsq → α) : f t.interlockView.tsq = f s.interlockView.tsq :=
    congrArg (fun v : InterlockView => f v.tsq) h
  have ldu {α : Type} (f : Ldu → α) : f t.interlockView.ldu = f s.interlockView.ldu :=
    congrArg (fun v : InterlockView => f v.ldu) h
  have lit : t.ldu.bankLit = s.ldu.bankLit := ldu Ldu.bankLit
  have state : t.ldu.state = s.ldu.state := ldu Ldu.state
  have record : t.ldu.record = s.ldu.record := ldu Ldu.record
  have abandoned : t.ldu.abandoned = s.ldu.abandoned := ldu Ldu.abandoned
  refine ⟨fun hs => ?_, fun hs => lit.trans hs⟩
  obtain ⟨guarded, coherent⟩ := s.interlockLaw_iff.1 hs
  refine t.interlockLaw_iff.2 ⟨?_, ?_⟩
  · rw [lit]
    exact guarded.congr (tsq Tsq.arm) (tsq Tsq.platen) (tsq Tsq.relayOpen) (tsq Tsq.work) (tsq Tsq.stage)
      (tsq Tsq.stageWatch) (tsq Tsq.cutWatch)
  · exact ⟨by rw [lit, state]; exact coherent.lit, by rw [record, state]; exact coherent.record,
      by rw [abandoned, state]; exact coherent.abandoned⟩

theorem State.settle_interlocked (s : State) (before : Bool) : State.Interlocked s (s.settle before) := by
  refine State.interlocked_of_view ?_
  unfold State.settle
  split <;> rfl

/-- An event at the sequencer: the light unit is left alone but for the fall of the signal (R80). -/
theorem State.tsqNext_interlocked {s t a : State} (h : s.tsqNext a = .next t) (ldu : a.ldu = s.ldu)
    (guarded : s.tsq.Guarded s.ldu.bankLit → a.tsq.Guarded s.ldu.bankLit) : State.Interlocked s t := by
  rw [← next_inj h]
  refine State.Interlocked.trans ⟨fun hs => ?_, fun hs => by rw [ldu]; exact hs⟩ (State.settle_interlocked ..)
  obtain ⟨hg, hl⟩ := s.interlockLaw_iff.1 hs
  rw [State.interlockLaw_iff, ldu]
  exact ⟨guarded hg, hl⟩

section SequencerCommands
variable {s t : State}

/-! ### Requests of OCC (R81, R89, R95) -/

/-- A turn is accepted at rest with the arm PARKED; with a bank lit it waits for the dark (R81). -/
theorem State.acceptTurn_guarded (h : s.tsq.Guarded s.ldu.bankLit) (rest : s.tsq.work = .none)
    (parked : s.tsq.arm = .parked) (c : Nat) : (s.acceptTurn c).tsq.Guarded s.ldu.bankLit := by
  obtain ⟨-, watch, cut⟩ := h.coherent.idle rest
  have power : s.tsq.arm ≠ .dead := by rw [parked]; exact nofun
  have relay : s.tsq.relayOpen = false := Bool.eq_false_iff.2 fun k => power (h.coherent.relay.1 k)
  unfold State.acceptTurn
  dsimp only
  split
  · exact {
      coherent := {
        relay := h.coherent.relay
        dead := fun k => absurd k power
        idle := nofun
        turn := fun _ _ _ => nofun
        wait := fun _ => watch
        park := nofun
        platen := nofun
        cut := fun k => absurd k (by simp [cut]) }
      motion := fun g stage moves => absurd (Option.some.inj stage).symm moves
      watched := fun k => absurd k (by simp [watch])
      dark := fun _ => .inr (.inl rfl) }
  · next dark =>
    rw [Bool.eq_false_iff.2 dark]
    apply Tsq.beginPlatenUp_guarded
    exacts [rfl, relay, power, cut]

theorem execTurnRequest_interlocked (h : execTurnRequest s = .next t) : State.Interlocked s t := by
  refine State.tsqNext_interlocked h ?_ ?_
  · split
    · dsimp only
      split <;> rfl
    · rfl
  · intro hs
    split
    · dsimp only
      split
      · exact hs.congr
      · next accepts =>
        simp only [Tsq.refusesTurn, State.setTsq_tsq, Bool.or_eq_true, bne_iff_ne, not_or, not_not] at accepts
        obtain ⟨⟨parked, -⟩, rest⟩ := accepts
        apply State.acceptTurn_guarded
        exacts [hs.congr, rest, parked]
    · exact hs

theorem execPlatenRequest_interlocked (h : execPlatenRequest s = .next t) : State.Interlocked s t := by
  refine State.tsqNext_interlocked h ?_ ?_
  · split
    · split <;> simp
    · rfl
  · intro hs
    split
    · split
      · next rest =>
        obtain ⟨-, -, cut⟩ := hs.coherent.idle rest
        exact State.beginPlatenDown_guarded (s := s.setTsq _) hs.coherent.relay cut (.inl rfl) (absurd rfl)
      · exact hs
    · exact hs

/-- A STOP turns a turn back from where it stands (R95). -/
theorem State.stopTurn_guarded (h : s.tsq.Guarded s.ldu.bankLit) {c r : Nat} {g : Stage} (work : s.tsq.work = .turn c r)
    (stage : s.tsq.stage = some g) : (s.stopTurn g).tsq.Guarded s.ldu.bankLit := by
  obtain ⟨-, power⟩ := h.coherent.turn_power work
  have down (other : g ≠ .retract) : ((s.setTsq s.tsq.turnBack).beginPlatenDown).tsq.Guarded s.ldu.bankLit :=
    State.beginPlatenDown_guarded (s := s.setTsq _) h.coherent.relay (h.coherent.cut_none stage other)
      (.inr ⟨c, r, work⟩) (fun _ => power)
  cases g with
  | waitDark => exact down nofun
  | platenUp => exact down nofun
  | reach | separate | lift | read => exact h.next stage nofun nofun nofun rfl nofun
  | release =>
    simp only [State.stopTurn]
    split
    · exact h
    · exact h.congr
  | sweep | setDown | goHome | platenDown | retract => exact h

theorem execTsqStop_interlocked (h : execTsqStop s = .next t) : State.Interlocked s t := by
  refine State.tsqNext_interlocked h ?_ ?_
  · split
    · dsimp only
      split <;> simp
    · rfl
  · intro hs
    split
    · dsimp only
      split
      · next work stage =>
        apply State.stopTurn_guarded
        exacts [hs.congr, work, stage]
      · exact hs.congr
      · exact hs.congr
    · exact hs

/-! ### The position switches and the pressure sensor (R79, R88, R89, R94, R96) -/

theorem Tsq.atRest_iff (t : Tsq) : t.atRest = true ↔ t.work = .none ∧ t.arm ≠ .dead := by
  simp only [Tsq.atRest, Bool.and_eq_true, beq_iff_eq, bne_iff_ne]

theorem Tsq.inStage_iff (t : Tsq) (g : Stage) : t.inStage g = true ↔ t.stage = some g := beq_iff_eq

/-- A change at rest, with the relay closed, is free of the law (R79). -/
theorem Tsq.Guarded.at_rest {t u : Tsq} {lit : Bool} (h : t.Guarded lit) (rest : t.work = .none)
    (power : t.arm ≠ .dead) (arm : u.arm ≠ .dead) (relay : u.relayOpen = t.relayOpen := by rfl)
    (work : u.work = t.work := by rfl) (stage : u.stage = t.stage := by rfl)
    (watch : u.stageWatch = t.stageWatch := by rfl) (cut : u.cutWatch = t.cutWatch := by rfl) : u.Guarded lit := by
  obtain ⟨noStage, noWatch, noCut⟩ := h.coherent.idle rest
  refine .of_rest ⟨fun k => ?_, fun k => absurd k arm⟩ (work.trans rest) (stage.trans noStage) (watch.trans noWatch)
    (cut.trans noCut) lit
  exact absurd (h.coherent.relay.1 (relay.symm.trans k)) power

theorem execUpSwitchCloses_interlocked (h : execUpSwitchCloses s = .next t) : State.Interlocked s t := by
  refine State.tsqNext_interlocked h rfl fun hs => ?_
  rw [State.setTsq_tsq]
  split
  · next stage =>
    have stage : s.tsq.stage = some .platenUp := (Tsq.inStage_iff _ _).1 stage
    obtain ⟨c, r, work⟩ := hs.coherent.turn_of_stage stage nofun
    have turn := hs.inTurn work stage nofun
    exact Tsq.InTurn.guarded (g := .reach) {
      work := ⟨c, r, work⟩
      stage := rfl
      relay := turn.relay
      power := nofun
      away := Tsq.ready_eq_false_of_arm nofun
      cut := fun k => nomatch turn.cut k
      dark := fun on => nomatch turn.dark on
      moves := nofun }
  split
  · next rest =>
    obtain ⟨rest, power⟩ := (Tsq.atRest_iff _).1 (Bool.and_eq_true_iff.1 rest).1
    exact hs.at_rest rest power power
  · exact hs.congr

theorem execUpSwitchOpens_interlocked (h : execUpSwitchOpens s = .next t) : State.Interlocked s t := by
  refine State.tsqNext_interlocked h rfl fun hs => ?_
  rw [State.setTsq_tsq]
  split
  · next rest =>
    obtain ⟨rest, power⟩ := (Tsq.atRest_iff _).1 (Bool.and_eq_true_iff.1 rest).1
    exact hs.at_rest rest power power
  · exact hs.congr

/-- The work that a stage of PLATEN_DOWN belongs to, with no cut-delay watch (R89, R94). -/
theorem Tsq.Coherent.down_work {t : Tsq} (h : t.Coherent) (stage : t.stage = some .platenDown) :
    t.work = .platen ∨ ∃ c r, t.work = .turn c r := by
  cases work : t.work with
  | none => exact nomatch (h.idle work).1.symm.trans stage
  | turn c r => exact .inr ⟨c, r, rfl⟩
  | platen => exact .inl rfl
  | park i => exact nomatch (h.park i work).1.symm.trans stage

theorem execDownSwitchCloses_interlocked (h : execDownSwitchCloses s = .next t) : State.Interlocked s t := by
  refine State.tsqNext_interlocked h ?_ fun hs => ?_
  · split <;> simp
  split
  · next stage =>
    have stage : s.tsq.stage = some .platenDown := (Tsq.inStage_iff _ _).1 stage
    apply State.arriveDown_guarded
    exacts [hs.coherent.relay, hs.coherent.down_work stage]
  rw [State.setTsq_tsq]
  split
  · next rest =>
    obtain ⟨rest, power⟩ := (Tsq.atRest_iff _).1 (Bool.and_eq_true_iff.1 rest).1
    exact hs.at_rest rest power power
  · exact hs.congr

theorem execDownSwitchOpens_interlocked (h : execDownSwitchOpens s = .next t) : State.Interlocked s t := by
  refine State.tsqNext_interlocked h rfl fun hs => ?_
  rw [State.setTsq_tsq]
  split
  · next rest =>
    obtain ⟨rest, power⟩ := (Tsq.atRest_iff _).1 (Bool.and_eq_true_iff.1 rest).1
    exact hs.at_rest rest power power
  · exact hs.congr

theorem execPressureReading_interlocked {n : Fin 1024} (h : execPressureReading n s = .next t) :
    State.Interlocked s t := by
  refine State.tsqNext_interlocked h ?_ fun hs => ?_
  · split <;> simp
  split
  · next reached =>
    have stage : s.tsq.stage = some .platenDown := (Tsq.inStage_iff _ _).1 (Bool.and_eq_true_iff.1 reached).1
    apply State.arriveDown_guarded
    exacts [hs.coherent.relay, hs.coherent.down_work stage]
  · exact hs.congr

/-- A turn that stalls is answered, and nothing is in flight (R92 to R94). -/
theorem State.stallTurn_guarded {a : State} {lit : Bool} (relay : a.tsq.relayOpen = true ↔ a.tsq.arm = .dead) :
    a.stallTurn.tsq.Guarded lit := Tsq.endWork_guarded relay lit

theorem execParkSwitchCloses_interlocked (h : execParkSwitchCloses s = .next t) : State.Interlocked s t := by
  refine State.tsqNext_interlocked h ?_ fun hs => ?_
  · split
    case h_4 => split <;> rfl
    all_goals simp
  dsimp only
  have closed (power : s.tsq.arm ≠ .dead) : s.tsq.relayOpen = true ↔ Arm.parked = .dead :=
    ⟨fun k => absurd (hs.coherent.relay.1 k) power, nofun⟩
  split
  · next work =>
    have power := (hs.coherent.power (by rw [work]; exact nofun) (by rw [work]; exact nofun)).2
    exact Tsq.endWork_guarded (t := { s.tsq with parkSw := true, arm := .parked }) (closed power) _
  · next work stage =>
    obtain ⟨-, power⟩ := hs.coherent.turn_power work
    apply State.beginPlatenDown_guarded
    exacts [closed power, hs.coherent.cut_none stage nofun, .inr ⟨_, _, work⟩, fun _ => nofun]
  · next work stage =>
    exact State.stallTurn_guarded (closed (hs.coherent.turn_power work).2)
  · next rest =>
    split
    · next away =>
      have power : s.tsq.arm ≠ .dead := fun dead => by rw [dead] at away; exact away.elim nofun nofun
      exact hs.at_rest rest power nofun
    · exact hs.congr
  · exact hs.congr

theorem execParkSwitchOpens_interlocked (h : execParkSwitchOpens s = .next t) : State.Interlocked s t := by
  refine State.tsqNext_interlocked h rfl fun hs => ?_
  rw [State.setTsq_tsq]
  split
  · next rest =>
    obtain ⟨rest, power⟩ := (Tsq.atRest_iff _).1 (Bool.and_eq_true_iff.1 rest).1
    exact hs.at_rest rest power nofun
  · exact hs.congr

/-! ### The stages of a turn (R82 to R88, R91) -/

theorem execEdgeReached_interlocked (h : execEdgeReached s = .next t) : State.Interlocked s t := by
  refine State.tsqNext_interlocked h (by split <;> rfl) fun hs => ?_
  split
  · next stage => exact hs.next stage nofun nofun nofun rfl nofun
  · exact hs

theorem execBurstEnd_interlocked (h : execBurstEnd s = .next t) : State.Interlocked s t := by
  refine State.tsqNext_interlocked h (by split <;> rfl) fun hs => ?_
  split
  · next stage => exact hs.next ((Tsq.inStage_iff _ _).1 stage) nofun nofun nofun rfl nofun
  · exact hs

theorem execVacuumSwitchCloses_interlocked (h : execVacuumSwitchCloses s = .next t) : State.Interlocked s t := by
  refine State.tsqNext_interlocked h (by split <;> rfl) fun hs => ?_
  split
  · next stage => exact hs.next ((Tsq.inStage_iff _ _).1 stage) nofun nofun nofun rfl nofun
  · exact hs

theorem execSweepEnd_interlocked (h : execSweepEnd s = .next t) : State.Interlocked s t := by
  refine State.tsqNext_interlocked h (by split <;> rfl) fun hs => ?_
  split
  · next stage => exact hs.next ((Tsq.inStage_iff _ _).1 stage) nofun nofun nofun rfl nofun
  · exact hs

/-- A reading that is no single leaf ends in RELEASE (R85). -/
theorem State.failAttempt_guarded {lit : Bool} (h : s.tsq.Guarded lit) (stage : s.tsq.stage = some .read) (r : Nat)
    (x : LiftReading) : (s.failAttempt r x).tsq.Guarded lit := by
  rw [State.failAttempt, (State.changeAccount_issued ..).tsq]
  exact h.next stage nofun nofun nofun rfl nofun

theorem execReadSettled_interlocked {x : LeafReading} (h : execReadSettled x s = .next t) : State.Interlocked s t := by
  refine State.tsqNext_interlocked h ?_ fun hs => ?_
  · split
    · split <;> simp
    · rfl
  split
  · next stage =>
    split
    · exact hs.next stage nofun nofun nofun rfl nofun
    all_goals exact State.failAttempt_guarded hs stage ..
  · exact hs

/-- A leaf lost in SWEEP ends the turn with the arm HELD (R91). -/
theorem State.dropLeaf_guarded {lit : Bool} (h : s.tsq.Guarded lit) {c r : Nat} (work : s.tsq.work = .turn c r) :
    (s.dropLeaf r).tsq.Guarded lit := by
  obtain ⟨relay, -⟩ := h.coherent.turn_power work
  refine Tsq.endWork_guarded (t := State.tsq (State.changeAccount _ _ _)) ?_ lit
  rw [(State.changeAccount_issued ..).tsq]
  exact ⟨fun k => absurd (relay.symm.trans k) nofun, nofun⟩

theorem execVacuumSwitchOpens_interlocked (h : execVacuumSwitchOpens s = .next t) : State.Interlocked s t := by
  refine State.tsqNext_interlocked h (by split <;> simp) fun hs => ?_
  split
  · next stage =>
    unfold State.endRelease
    split <;> exact hs.next stage nofun nofun nofun rfl nofun
  · next stage => exact hs.next stage nofun nofun nofun rfl nofun
  · next stage => exact State.failAttempt_guarded hs stage ..
  · next work _ => exact State.dropLeaf_guarded hs work
  · exact hs

/-! ### The watches (R86, R92 to R94, R96) -/

theorem execRetryWindowExpiry_interlocked (h : execRetryWindowExpiry s = .next t) : State.Interlocked s t := by
  refine State.tsqNext_interlocked h (by split <;> rfl) fun hs => ?_
  split
  · exact hs.congr
  · exact hs

/-- An arm that does not arrive is held, cut or retracted (R93, R94). -/
theorem State.armStall_guarded {lit : Bool} {g : Stage} (h : s.tsq.InTurn lit g) (dark : g ≠ .platenDown) :
    s.armStall.tsq.Guarded lit := by
  have retracting (cut : Bool) : (s.tsq.beginRetract s.profile cut).Guarded lit :=
    Tsq.InTurn.guarded (g := .retract) {
      work := h.work
      stage := rfl
      relay := h.relay
      power := h.power
      away := h.away
      cut := fun _ => rfl
      dark := fun on => absurd (h.dark on) dark
      moves := nofun }
  have held : s.holdArm.stallTurn.tsq.Guarded lit :=
    State.stallTurn_guarded (a := s.holdArm) ⟨fun k => absurd (h.relay.symm.trans k) nofun, nofun⟩
  unfold State.armStall
  split
  · exact held
  · exact held
  · exact State.stallTurn_guarded (a := s.cutArm) ⟨fun _ => rfl, fun _ => rfl⟩
  · exact retracting false
  · exact retracting true

/-- A platen that does not arrive ends the work (R92). -/
theorem State.platenStall_guarded {lit : Bool} (h : s.tsq.Guarded lit) : s.platenStall.tsq.Guarded lit := by
  unfold State.platenStall
  dsimp only
  split <;> exact Tsq.endWork_guarded (t := { s.tsq with platen := .unknown }) h.coherent.relay lit

theorem State.stageExpired_guarded {lit : Bool} (h : s.tsq.Guarded lit) (watch : s.tsq.stageWatch.isSome) :
    s.stageExpired.tsq.Guarded lit := by
  have held (relay : s.tsq.relayOpen = false) : s.holdArm.tsq.relayOpen = true ↔ s.holdArm.tsq.arm = .dead :=
    ⟨fun k => absurd (relay.symm.trans k) nofun, nofun⟩
  unfold State.stageExpired
  split
  · next i work =>
    have power := h.coherent.power (by rw [work]; exact nofun) (by rw [work]; exact nofun)
    exact Tsq.endWork_guarded (held power.1) lit
  · exact State.platenStall_guarded h
  · exact State.platenStall_guarded h
  · next stage _ =>
    obtain ⟨c, r, work⟩ := h.coherent.turn_of_stage stage nofun
    split
    · exact State.stallTurn_guarded (a := s.cutArm) ⟨fun _ => rfl, fun _ => rfl⟩
    · exact State.stallTurn_guarded (held (h.coherent.turn_power work).1)
  · next noPark noUp noDown _ =>
    have turning : ∃ c r, s.tsq.work = .turn c r := by
      cases work : s.tsq.work with
      | none =>
        rw [(h.coherent.idle work).2.1] at watch
        cases watch
      | turn c r => exact ⟨c, r, rfl⟩
      | platen => exact (noDown (h.coherent.platen work).1).elim
      | park i => exact (noPark i work).elim
    obtain ⟨c, r, work⟩ := turning
    obtain ⟨g, stage⟩ := Option.ne_none_iff_exists'.1 (h.coherent.turn c r work)
    have moves : g ≠ .waitDark := by
      rintro rfl
      rw [h.coherent.wait stage] at watch
      cases watch
    exact State.armStall_guarded (h.inTurn work stage moves) (by rintro rfl; exact noDown stage)

theorem execStageWatchExpiry_interlocked (h : execStageWatchExpiry s = .next t) : State.Interlocked s t := by
  refine State.tsqNext_interlocked h (by split <;> simp) fun hs => ?_
  split
  · next runs =>
    refine State.stageExpired_guarded hs ?_
    cases watch : s.tsq.stageWatch with
    | none => rw [watch] at runs; cases runs
    | some k => rfl
  · exact hs

theorem execCutDelayExpiry_interlocked (h : execCutDelayExpiry s = .next t) : State.Interlocked s t := by
  refine State.tsqNext_interlocked h (by split <;> rfl) fun hs => ?_
  split
  · exact State.stallTurn_guarded (a := s.cutArm) ⟨fun _ => rfl, fun _ => rfl⟩
  · exact hs

/-! ### PARK and ARM RESTORE (R96, R97) -/

/-- A PARK that is carried out at rest: with the release flag the vacuum is OFF and the foot lowered, and an arm away
from park is driven to it (R96). -/
theorem State.park_of_rest (taken : s.vau.vol.refusesArm = false) (power : s.tsq.arm ≠ .dead)
    (rest : s.tsq.work = .none) (i : Fin 16) (release : Bool) :
    let released : Tsq := { s.tsq with
      vacuum := if release = true then .off else s.tsq.vacuum
      foot := if release = true then .lowered else s.tsq.foot }
    s.park i release = if s.tsq.arm = .parked then (s.setTsq released).answer i .done
      else s.setTsq { released with work := .park i, arm := .moving, stageWatch := some s.parkClass } := by
  intro released
  rw [State.park, if_neg (Bool.eq_false_iff.1 taken), if_neg power, if_neg (not_not.2 rest)]
  cases release <;> rfl

theorem State.park_guarded {lit : Bool} (h : s.tsq.Guarded lit) (i : Fin 16) (release : Bool) :
    (s.park i release).tsq.Guarded lit := by
  by_cases carried : s.vau.vol.refusesArm = false ∧ s.tsq.arm ≠ .dead ∧ s.tsq.work = .none
  · obtain ⟨taken, power, rest⟩ := carried
    obtain ⟨stage, -, cut⟩ := h.coherent.idle rest
    rw [State.park_of_rest taken power rest]
    split
    · exact h.congr
    · exact {
        coherent := {
          relay := ⟨fun k => absurd (h.coherent.relay.1 k) power, nofun⟩
          dead := nofun
          idle := nofun
          turn := nofun
          wait := fun k => nomatch stage.symm.trans k
          park := fun _ _ => ⟨stage, cut⟩
          platen := nofun
          cut := fun k => absurd k (by simp [cut]) }
        motion := fun _ k => nomatch stage.symm.trans k
        watched := fun _ => Tsq.ready_eq_false_of_arm nofun
        dark := fun _ => .inl stage }
  · rw [State.park]
    split
    · exact h
    split
    · exact h
    split
    · exact h
    · next open' power rest =>
      exact absurd ⟨Bool.eq_false_iff.2 open', power, not_not.1 rest⟩ carried

theorem execPark_interlocked (h : execPark s = .next t) : State.Interlocked s t := by
  refine State.tsqNext_interlocked h ?_ fun hs => ?_
  · split
    · next hq => rw [State.park_ldu, State.nextOrder_eq hq]
    · rfl
  split
  · next hq => exact State.park_guarded (by rw [State.nextOrder_eq hq]; exact hs) ..
  · exact hs

theorem State.armRestore_guarded {lit : Bool} (h : s.tsq.Guarded lit) (i : Fin 16) :
    (s.armRestore i).tsq.Guarded lit := by
  unfold State.armRestore
  split
  · exact h
  split
  · exact {
      coherent := {
        relay := ⟨nofun, nofun⟩
        dead := nofun
        idle := h.coherent.idle
        turn := h.coherent.turn
        wait := h.coherent.wait
        park := h.coherent.park
        platen := h.coherent.platen
        cut := h.coherent.cut }
      motion := fun _ _ _ => Tsq.ready_eq_false_of_arm nofun
      watched := fun _ => Tsq.ready_eq_false_of_arm nofun
      dark := h.dark }
  · exact h

theorem execArmRestore_interlocked (h : execArmRestore s = .next t) : State.Interlocked s t := by
  refine State.tsqNext_interlocked h ?_ fun hs => ?_
  · split
    · next hq => rw [State.armRestore_ldu, State.nextOrder_eq hq]
    · rfl
  split
  · next hq => exact State.armRestore_guarded (by rw [State.nextOrder_eq hq]; exact hs) ..
  · exact hs

end SequencerCommands

end Sys2Proof.Machine
end

section
/-! SUPPORT. Each command of the light unit, the resets, and then every step under the law of the interlock (R80, R81,
R100, R102, R116 to R121). -/

namespace Sys2Proof.Machine

/-! ### The light unit (chapter 6) -/

/-- With the banks dark the law asks less of the sequencer. -/
theorem Tsq.Guarded.darkened {t : Tsq} {lit : Bool} (h : t.Guarded lit) : t.Guarded false :=
  ⟨h.coherent, h.motion, h.watched, nofun⟩

theorem Ldu.idle_coherent (l : Ldu) : l.idle.Coherent where
  lit := ⟨nofun, nofun⟩
  record := ⟨fun _ => rfl, fun _ => rfl⟩
  abandoned := nofun

/-- A change of the light unit that leaves the banks as they are. -/
theorem State.setLdu_interlocked {s : State} {l : Ldu} (lit : l.bankLit = s.ldu.bankLit)
    (coherent : s.ldu.Coherent → l.Coherent) : State.Interlocked s (s.setLdu l) where
  law h := by
    obtain ⟨guarded, sound⟩ := s.interlockLaw_iff.1 h
    exact (State.interlockLaw_iff _).2 ⟨by rw [State.setLdu_ldu, lit]; exact guarded, coherent sound⟩
  dark h := lit.trans h

/-- The end of an exposure darkens the banks (R98, R102). -/
theorem State.idle_interlocked (s : State) : State.Interlocked s (s.setLdu s.ldu.idle) where
  law h := (State.interlockLaw_iff _).2 ⟨(s.interlockLaw_iff.1 h).1.darkened, s.ldu.idle_coherent⟩
  dark _ := rfl

theorem State.notifyAll_interlockView (s : State) (cs : ChanSet) (f : Chan → Notice) :
    (s.notifyAll cs f).interlockView = s.interlockView := by
  unfold State.notifyAll
  dsimp only
  split <;> split <;> rfl

theorem State.notifyAll_interlocked (s : State) (cs : ChanSet) (f : Chan → Notice) :
    State.Interlocked s (s.notifyAll cs f) := State.interlocked_of_view (State.notifyAll_interlockView ..)

theorem State.toOcc_interlocked (s : State) (m : OccMsg) : State.Interlocked s (s.toOcc m) :=
  State.interlocked_of_view rfl

/-- The exposure ends with its channels told (R116, R118). -/
theorem State.notifyIdle_interlocked (s : State) (cs : ChanSet) (f : Chan → Notice) :
    State.Interlocked s ((s.notifyAll cs f).setLdu s.ldu.idle) := by
  have ldu : (s.notifyAll cs f).ldu = s.ldu := by
    unfold State.notifyAll
    dsimp only
    split <;> split <;> rfl
  rw [← ldu]
  exact (State.notifyAll_interlocked ..).trans (State.idle_interlocked _)

/-- Bank lit falls, and a turn that waits for the dark goes on (R81, R117). -/
theorem State.lampsOff_interlocked (s : State) : State.Interlocked s s.lampsOff where
  law h := by
    obtain ⟨guarded, -⟩ := s.interlockLaw_iff.1 h
    unfold State.lampsOff
    dsimp only
    split
    · next stage =>
      obtain ⟨c, r, work⟩ := guarded.coherent.turn_of_stage stage nofun
      obtain ⟨relay, power⟩ := guarded.coherent.turn_power work
      exact (State.interlockLaw_iff _).2 ⟨Tsq.beginPlatenUp_guarded work relay power
        (guarded.coherent.cut_none stage nofun) _, s.ldu.idle_coherent⟩
    · exact (State.interlockLaw_iff _).2 ⟨guarded.darkened, s.ldu.idle_coherent⟩
  dark _ := by
    unfold State.lampsOff
    dsimp only
    split <;> rfl

theorem State.endStrobe_interlocked (s : State) (r : ExposureRec) (k : NoticeKind) (a : FireReply) :
    State.Interlocked s (s.endStrobe r k a) :=
  ((State.notifyAll_interlocked ..).trans (State.toOcc_interlocked ..)).trans (State.lampsOff_interlocked _)

/-- A strobe begins under the interlock: no stage is in motion, so a bank may be lit (R80, R116). -/
theorem State.beginStrobe_law {s : State} (h : s.InterlockLaw) (ready : s.tsq.ready = true)
    (admitted : s.ldu.state = .admitted) (r : ExposureRec) : (s.beginStrobe r).InterlockLaw where
  tsq := h.tsq
  ldu := {
    lit := ⟨fun _ => rfl, fun _ => rfl⟩
    record := ⟨nofun, nofun⟩
    abandoned := fun k => absurd (admitted.symm.trans (h.ldu.abandoned k)) nofun }
  motion := h.motion
  watched := h.watched
  dark _ := by
    cases stage : s.tsq.stage with
    | none => exact .inl stage
    | some g =>
      by_cases wait : g = .waitDark
      · exact .inr (.inl (stage.trans (congrArg some wait)))
      · exact absurd ((h.motion g stage wait).symm.trans ready) nofun

theorem State.nextLdu_interlocked {s t : State} {m : LduMsg} (h : s.nextLdu = some (m, t)) : State.Interlocked s t :=
  State.interlocked_of_view (State.nextLdu_kept h).interlockView

section LightCommands
variable {s t : State}

/-- The charge of an admission from IDLE: CHARGING with its record, and no bank lit (R113). -/
theorem State.charge_interlocked (idle : s.ldu.state = .idle) (cs : ChanSet) (k : ExpClass) (d : DoseCase) :
    State.Interlocked s (s.charge cs k d) := by
  have dark (h : s.ldu.Coherent) : s.ldu.bankLit = false :=
    Bool.eq_false_iff.2 fun lit => absurd (idle.symm.trans (h.lit.1 lit)) nofun
  refine ⟨fun h => ?_, id⟩
  obtain ⟨guarded, coherent⟩ := s.interlockLaw_iff.1 h
  refine (State.interlockLaw_iff _).2 ⟨guarded, ?_⟩
  exact {
    lit := ⟨fun lit => absurd ((dark coherent).symm.trans lit) nofun, nofun⟩
    record := ⟨nofun, nofun⟩
    abandoned := nofun }

theorem execAdmissionRequest_interlocked (h : execAdmissionRequest s = .next t) : State.Interlocked s t := by
  rw [← next_inj h]
  split
  · next hq =>
    refine (State.nextLdu_interlocked hq).trans ?_
    split
    · next idle =>
      unfold State.considerAdmission
      dsimp only
      split
      · exact State.charge_interlocked idle ..
      · exact State.toOcc_interlocked ..
    · exact State.toOcc_interlocked ..
  · exact .refl s

theorem execChargeWritesComplete_interlocked (h : execChargeWritesComplete s = .next t) : State.Interlocked s t := by
  rw [← next_inj h]
  split
  · next r charging record =>
    have landed : State.Interlocked s (s.land fun w => w.writer == .ldu) := State.interlocked_of_view rfl
    refine landed.trans ?_
    dsimp only
    split
    · exact (State.idle_interlocked _).trans (State.toOcc_interlocked ..)
    · next kept =>
      refine State.Interlocked.trans ?_ (State.toOcc_interlocked ..)
      refine State.setLdu_interlocked (by rfl) fun coherent => ?_
      exact {
        lit := ⟨fun lit => absurd (charging.symm.trans (coherent.lit.1 lit)) nofun, nofun⟩
        record := ⟨fun none => absurd (record.symm.trans none) nofun, nofun⟩
        abandoned := fun k => absurd k kept }
  · exact .refl s

theorem execAbandonRequest_interlocked (h : execAbandonRequest s = .next t) : State.Interlocked s t := by
  rw [← next_inj h]
  split
  · next hq =>
    refine (State.nextLdu_interlocked hq).trans ?_
    split
    · next charging =>
      exact State.setLdu_interlocked rfl fun coherent => ⟨coherent.lit, coherent.record, fun _ => charging⟩
    · exact (State.idle_interlocked _).trans (State.toOcc_interlocked ..)
    · exact State.toOcc_interlocked ..
    · exact State.toOcc_interlocked ..
  · exact .refl s

theorem execStrobeEnd_interlocked (h : execStrobeEnd s = .next t) : State.Interlocked s t := by
  rw [← next_inj h]
  split
  · exact State.endStrobe_interlocked ..
  · exact .refl s

theorem execCancelRequest_interlocked (h : execCancelRequest s = .next t) : State.Interlocked s t := by
  rw [← next_inj h]
  split
  · next hq =>
    refine (State.nextLdu_interlocked hq).trans ?_
    split
    · exact (State.notifyIdle_interlocked ..).trans (State.toOcc_interlocked ..)
    · exact State.toOcc_interlocked ..
  · exact .refl s

theorem execAbortRequest_interlocked (h : execAbortRequest s = .next t) : State.Interlocked s t := by
  rw [← next_inj h]
  split
  · next hq =>
    refine (State.nextLdu_interlocked hq).trans ?_
    split
    · exact State.endStrobe_interlocked ..
    · exact State.toOcc_interlocked ..
  · exact .refl s

theorem execInterlockFall_interlocked (h : execInterlockFall s = .next t) : State.Interlocked s t := by
  rw [← next_inj h]
  split
  · split
    · exact State.endStrobe_interlocked ..
    · exact .refl s
  · exact .refl s

theorem execOpenStringSense_interlocked {b : Fin 4} (h : execOpenStringSense b s = .next t) :
    State.Interlocked s t := by
  rw [← next_inj h]
  split
  · next lit record =>
    split
    · refine State.Interlocked.trans ?_ (State.toOcc_interlocked ..)
      refine State.setLdu_interlocked (by rfl) fun coherent => ?_
      exact ⟨coherent.lit, ⟨nofun, fun idle => absurd (lit.symm.trans idle) nofun⟩, coherent.abandoned⟩
    · exact .refl s
  · exact .refl s

/-- A fire request lights a bank only from ADMITTED and under the interlock (R100, R116). -/
theorem execFireRequest_law (h : execFireRequest s = .next t) (hs : s.InterlockLaw) : t.InterlockLaw := by
  rw [← next_inj h]
  split
  · next u hq =>
    have hu : u.InterlockLaw := (State.nextLdu_interlocked hq).law hs
    split
    · next admitted _ =>
      unfold State.fire
      split
      · next ready => exact State.beginStrobe_law hu ready admitted _
      · exact ((State.notifyIdle_interlocked ..).trans (State.toOcc_interlocked ..)).law hu
    · exact (State.toOcc_interlocked ..).law hu
  · exact hs

theorem execFireRequest_lights (h : execFireRequest s = .next t) (dark : s.ldu.bankLit = false)
    (lit : t.ldu.bankLit = true) : s.ldu.state = .admitted ∧ s.tsq.ready = true := by
  rw [← next_inj h] at lit
  split at lit
  · next u hq =>
    have hu : u.ldu.bankLit = false := (State.nextLdu_interlocked hq).dark dark
    have same := State.nextLdu_kept hq
    have state : u.ldu.state = s.ldu.state := by rw [same.ldu]
    have signal : u.tsq.ready = s.tsq.ready := by rw [same.tsq]; rfl
    split at lit
    · next admitted _ =>
      unfold State.fire at lit
      split at lit
      · next ready => exact ⟨state ▸ admitted, signal ▸ ready⟩
      · exact nomatch lit
    · exact absurd (hu.symm.trans lit) nofun
  · exact absurd (dark.symm.trans lit) nofun

end LightCommands

/-! ### The resets (R77, R78, R98) -/

section Resets
variable {s t : State}

/-- A sequencer and a light unit at reset, with the relay open for a DEAD arm alone. -/
theorem State.Interlocked.of_reset (relay : s.tsq.Coherent → (t.tsq.relayOpen = true ↔ t.tsq.arm = .dead))
    (reset : t.tsq.AtReset) (ldu : t.ldu = Ldu.reset) : State.Interlocked s t := by
  obtain ⟨work, stage, -, -, -, -, -, -, -, -, -, watch, cut⟩ := reset
  refine ⟨fun h => (State.interlockLaw_iff _).2 ⟨.of_rest (relay h.tsq) work stage watch cut _, ?_⟩, fun _ => ?_⟩
  · rw [ldu]; exact Ldu.reset_coherent
  · rw [ldu]; rfl

theorem execPowerOnReset_interlocked {p u d : Bool} (h : execPowerOnReset p u d s = .next t) :
    State.Interlocked s t := by
  rw [← next_inj h]
  refine .of_reset (fun _ => ⟨nofun, fun dead => ?_⟩) (Tsq.powerOn_atReset ..) rfl
  cases p <;> exact nomatch dead

/-- A DEAD arm stays DEAD over a controller reset, with its relay open (R78). -/
theorem State.controllerReset_interlocked (s : State) : State.Interlocked s s.controllerReset := by
  refine .of_reset (fun coherent => ?_) (Tsq.controllerReset_atReset s.tsq) rfl
  refine Iff.trans coherent.relay ⟨fun dead => if_pos dead, fun dead => ?_⟩
  by_contra power
  have fresh : (Tsq.powerOn s.tsq.parkSw s.tsq.upSw s.tsq.downSw s.tsq.pressure).arm = .dead :=
    (if_neg power).symm.trans dead
  cases park : s.tsq.parkSw <;> rw [park] at fresh <;> exact nomatch fresh

theorem execControlReset_interlocked {e : Bool} (h : execControlReset e s = .next t) : State.Interlocked s t := by
  rw [← next_inj h]
  exact s.controllerReset_interlocked

theorem execControlEnable_interlocked {v : Word32} (h : execControlEnable v s = .next t) : State.Interlocked s t := by
  rw [← next_inj h]
  split
  · exact s.controllerReset_interlocked
  · exact State.interlocked_of_view rfl

end Resets

/-! ### Every command, and the step -/

section Step
variable {s t : State}

/-- Every command but a fire request keeps the law of the interlock and lights no bank. -/
theorem exec_interlocked {c : Instr} (h : exec c s = .next t) (other : c ≠ .fireRequest) : State.Interlocked s t := by
  have view (k : t.interlockView = s.interlockView) : State.Interlocked s t := State.interlocked_of_view k
  have kept (k : State.Kept s t) : State.Interlocked s t := view k.interlockView
  cases c with
  | powerOnReset => exact execPowerOnReset_interlocked h
  | controlReset e => exact execControlReset_interlocked (e := e) h
  | controlEnable => exact execControlEnable_interlocked h
  | post => exact view (execPost_interlockView h)
  | slotReadComplete => exact view (execSlotReadComplete_interlockView h)
  | answerWriteComplete => exact view (execAnswerWriteComplete_interlockView h)
  | ack => exact view (execAck_interlockView h)
  | noteClear => exact view (execNoteClear_interlockView h)
  | noteMaskWrite => exact view (execNoteMaskWrite_interlockView h)
  | baseWrite => exact view (execBaseWrite_interlockView h)
  | grant => exact view (execGrant_interlockView h)
  | registerWriteIgnored => rw [← next_inj h]; exact .refl s
  | loadTables => exact view (execLoadTables_interlockView h)
  | tableImagesRead => exact view (execTableImagesRead_interlockView h)
  | sidebandSlotsClear => exact view (execSidebandSlotsClear_interlockView h)
  | openVolume => exact view (execOpenVolume_interlockView h)
  | sheetHeaderRead => exact view (execSheetHeaderRead_interlockView h)
  | planRead => exact view (execPlanRead_interlockView h)
  | ledgerReadComplete => exact view (execLedgerReadComplete_interlockView h)
  | openingWritesComplete => exact view (execOpeningWritesComplete_interlockView h)
  | amend => exact view (execAmend_interlockView h)
  | amendWritesComplete => exact view (execAmendWritesComplete_interlockView h)
  | handDone => exact view (execHandDone_interlockView h)
  | handDoneWritesComplete => exact view (execHandDoneWritesComplete_interlockView h)
  | closeVolume => exact view (execCloseVolume_interlockView h)
  | closingWriteComplete => exact view (execClosingWriteComplete_interlockView h)
  | advance => exact kept (execAdvance_kept h)
  | capture => exact kept (execCapture_kept h)
  | turn => exact kept (execTurn_kept h)
  | retake => exact kept (execRetake_kept h)
  | stop => exact kept (execStop_kept h)
  | reservationAnswer => exact kept (execReservationAnswer_kept h)
  | grantReport => exact kept (execGrantReport_kept h)
  | roomWatchExpiry => exact kept (execRoomWatchExpiry_kept h)
  | admissionAnswer => exact kept (execAdmissionAnswer_kept h)
  | armedAnswer => exact kept (execArmedAnswer_kept h)
  | fireAnswer => exact kept (execFireAnswer_kept h)
  | platenCompletion => exact kept (execPlatenCompletion_kept h)
  | turnCompletion => exact kept (execTurnCompletion_kept h)
  | lampFaultReport => exact kept (execLampFaultReport_kept h)
  | cameraFaultReport => exact kept (execCameraFaultReport_kept h)
  | judgementTaken => exact kept (execJudgementTaken_kept h)
  | cancelAnswer => exact kept (execCancelAnswer_kept h)
  | admissionRequest => exact execAdmissionRequest_interlocked h
  | chargeWritesComplete => exact execChargeWritesComplete_interlocked h
  | abandonRequest => exact execAbandonRequest_interlocked h
  | fireRequest => exact absurd rfl other
  | strobeEnd => exact execStrobeEnd_interlocked h
  | cancelRequest => exact execCancelRequest_interlocked h
  | abortRequest => exact execAbortRequest_interlocked h
  | interlockFall => exact execInterlockFall_interlocked h
  | openStringSense => exact execOpenStringSense_interlocked h
  | turnRequest => exact execTurnRequest_interlocked h
  | platenRequest => exact execPlatenRequest_interlocked h
  | tsqStop => exact execTsqStop_interlocked h
  | upSwitchCloses => exact execUpSwitchCloses_interlocked h
  | upSwitchOpens => exact execUpSwitchOpens_interlocked h
  | downSwitchCloses => exact execDownSwitchCloses_interlocked h
  | downSwitchOpens => exact execDownSwitchOpens_interlocked h
  | pressureReading => exact execPressureReading_interlocked h
  | edgeReached => exact execEdgeReached_interlocked h
  | burstEnd => exact execBurstEnd_interlocked h
  | vacuumSwitchCloses => exact execVacuumSwitchCloses_interlocked h
  | vacuumSwitchOpens => exact execVacuumSwitchOpens_interlocked h
  | readSettled => exact execReadSettled_interlocked h
  | sweepEnd => exact execSweepEnd_interlocked h
  | parkSwitchCloses => exact execParkSwitchCloses_interlocked h
  | parkSwitchOpens => exact execParkSwitchOpens_interlocked h
  | retryWindowExpiry => exact execRetryWindowExpiry_interlocked h
  | stageWatchExpiry => exact execStageWatchExpiry_interlocked h
  | cutDelayExpiry => exact execCutDelayExpiry_interlocked h
  | park => exact execPark_interlocked h
  | armRestore => exact execArmRestore_interlocked h
  | reservationRequest => exact view (execReservationRequest_interlockView h)
  | descriptorReadComplete => exact view (execDescriptorReadComplete_interlockView h)
  | unusableWriteComplete => exact view (execUnusableWriteComplete_interlockView h)
  | releaseRequest => exact view (execReleaseRequest_interlockView h)
  | descriptorFilled => exact view (execDescriptorFilled_interlockView h)
  | armRequest => exact view (execArmRequest_interlockView h)
  | endOfExposureNotice => exact view (execEndOfExposureNotice_interlockView h)
  | frameHeader => exact view (execFrameHeader_interlockView h)
  | bodyByte => exact view (execBodyByte_interlockView h)
  | frameTrailer => exact view (execFrameTrailer_interlockView h)
  | startMark => exact view (execStartMark_interlockView h)
  | resultWriteComplete => exact view (execResultWriteComplete_interlockView h)
  | frameWatchExpiry => exact view (execFrameWatchExpiry_interlockView h)
  | sideband => exact view (execSideband_interlockView h)
  | sidebandMalformed c ty n => exact view (execSidebandMalformed_interlockView (ty := ty) (n := n) h)
  | strayBytes => rw [← next_inj h]; exact .refl s
  | readSideband => exact view (execReadSideband_interlockView h)
  | sidebandCopy => exact view (execSidebandCopy_interlockView h)
  | sidebandReportWritten => exact view (execSidebandReportWritten_interlockView h)

theorem step_interlockLaw (hs : s.InterlockLaw) (h : step s = .next t) : t.InterlockLaw := by
  unfold step at h
  split at h
  · rw [← next_inj h]; exact hs
  · next c rest _ =>
    have hs : (s.withPending rest).InterlockLaw := ⟨hs.tsq, hs.ldu, hs.motion, hs.watched, hs.dark⟩
    by_cases fire : c = .fireRequest
    · subst fire
      exact execFireRequest_law h hs
    · exact (exec_interlocked h fire).law hs

theorem Tsq.ready_iff (t : Tsq) : t.ready = true ↔ t.arm = .parked ∧ (t.platen = .down ∨ t.platen = .contact) := by
  simp only [Tsq.ready, Bool.and_eq_true, Bool.or_eq_true, beq_iff_eq]

/-- A bank becomes lit only at a fire request in ADMITTED, under the interlock (R100, R116). -/
theorem step_lights (h : step s = .next t) (dark : s.ldu.bankLit = false) (lit : t.ldu.bankLit = true) :
    s.pending.head? = some .fireRequest ∧ s.ldu.state = .admitted ∧ s.tsq.ready = true := by
  unfold step at h
  split at h
  · rw [← next_inj h] at lit
    exact absurd (dark.symm.trans lit) nofun
  · next c rest queue =>
    by_cases fire : c = .fireRequest
    · subst fire
      exact ⟨by rw [queue]; rfl, execFireRequest_lights (s := s.withPending rest) h dark lit⟩
    · exact absurd (((exec_interlocked h fire).dark dark).symm.trans lit) nofun

end Step

/-- Settles O46: the law by what each command keeps, and the light from the one command that gives it. -/
theorem interlockLawKept : Obligations.InterlockLawKept := by
  refine ⟨fun s t hs h => step_interlockLaw hs h, fun s hs sweep => ?_, fun s t h dark lit => ?_⟩
  · refine Bool.eq_false_iff.2 fun lit => ?_
    obtain k | k | k := hs.dark lit <;> exact nomatch sweep.symm.trans k
  · obtain ⟨fire, admitted, ready⟩ := step_lights h dark lit
    exact ⟨fire, admitted, (Tsq.ready_iff _).1 ready⟩

end Sys2Proof.Machine
end

section
/-! SUPPORT. How the sequencer's shared operations answer, an equation per case (R80, R81, R87, R89, R93), and
the end of an event in which the interlock signal does not fall. -/

namespace Sys2Proof.Machine

/-- A fall of ready-to-light waits at the light unit while a strobe is lit, and is not seen otherwise (R80, R120). -/
theorem State.settle_eq (s : State) (before : Bool) : s.settle before
    = if before = true ∧ s.tsq.ready = false ∧ s.ldu.state = .lit then { s with ldu := { s.ldu with fall := true } }
      else s := by
  rw [State.settle]
  exact if_congr (by simp [and_assoc]) rfl rfl

/-- An event that leaves ready-to-light standing leads to its state as it is. -/
theorem State.tsqNext_of_ready {s after : State} (kept : s.tsq.ready = true → after.tsq.ready = true) :
    s.tsqNext after = .next after := by
  rw [State.tsqNext, State.settle_eq]
  refine congrArg _ (if_neg ?_)
  rintro ⟨before, fallen, -⟩
  exact absurd ((kept before).symm.trans fallen) nofun

theorem Tsq.not_ready_of_platen {t : Tsq} {p : Prop} (down : t.platen ≠ .down) (contact : t.platen ≠ .contact)
    (ready : t.ready = true) : p :=
  absurd ((Tsq.ready_iff t).1 ready).2 (not_or_intro down contact)

theorem Tsq.not_ready_of_arm {t : Tsq} {p : Prop} (away : t.arm ≠ .parked) (ready : t.ready = true) : p :=
  absurd ((Tsq.ready_iff t).1 ready).1 away

/-! ### PLATEN_UP and PLATEN_DOWN (R81, R87, R89) -/

theorem Tsq.beginPlatenUp_of_up {t : Tsq} (up : t.platen = .up) (closed : t.upSw = true) (p : Profile) :
    t.beginPlatenUp p = t.beginReach p := if_pos ⟨up, closed⟩

theorem Tsq.beginPlatenUp_of_not_up {t : Tsq} (h : t.platen ≠ .up ∨ t.upSw = false) (p : Profile) :
    t.beginPlatenUp p = { t with stage := some .platenUp, platen := .moving, stageWatch := some p.platenClass } :=
  if_neg fun ⟨up, closed⟩ => h.elim (· up) (fun opened => absurd (opened.symm.trans closed) nofun)

section PlatenDown

variable {s : State} {c r : Nat}

theorem State.finishDown_platen (work : s.tsq.work = .platen) :
    s.finishDown = (s.setTsq s.tsq.endWork).toOcc (.platen true) := by
  rw [State.finishDown, work]

theorem State.finishDown_turnedBack (work : s.tsq.work = .turn c r) (back : s.tsq.turnedBack = true) :
    s.finishDown = s.answerTurn .stopped := by
  simp only [State.finishDown, work, back, if_true]

theorem State.finishDown_failed {f : TurnFailure} (work : s.tsq.work = .turn c r) (back : s.tsq.turnedBack = false)
    (failure : s.tsq.failure = some f) : s.finishDown = s.answerTurn (.failed f.reason r) := by
  simp only [State.finishDown, work, back, failure, Bool.false_eq_true, if_false]

theorem State.finishDown_turned (work : s.tsq.work = .turn c r) (back : s.tsq.turnedBack = false)
    (failure : s.tsq.failure = none) : s.finishDown = s.answerTurn (.turned r) := by
  simp only [State.finishDown, work, back, failure, Bool.false_eq_true, if_false]

/-- The sequencer that drives the platen down. -/
def Tsq.drivingDown (t : Tsq) (p : Profile) : Tsq :=
  { t with stage := some .platenDown, platen := .moving, stageWatch := some p.platenClass }

theorem State.beginPlatenDown_closed (closed : s.tsq.downSw = true) :
    s.beginPlatenDown = (s.setTsq (s.tsq.drivingDown s.profile)).arriveDown .down := if_pos closed

theorem State.beginPlatenDown_pressed (opened : s.tsq.downSw = false)
    (pressed : s.profile.pressureLimit ≤ s.tsq.pressure) :
    s.beginPlatenDown = (s.setTsq (s.tsq.drivingDown s.profile)).arriveDown .contact :=
  (if_neg (Bool.eq_false_iff.1 opened)).trans (if_pos pressed)

theorem State.beginPlatenDown_drives (opened : s.tsq.downSw = false)
    (free : s.tsq.pressure < s.profile.pressureLimit) :
    s.beginPlatenDown = s.setTsq (s.tsq.drivingDown s.profile) :=
  (if_neg (Bool.eq_false_iff.1 opened)).trans (if_neg (Nat.not_le.2 free))

end PlatenDown

end Sys2Proof.Machine
end

section
/-! SUPPORT. The requests of OCC at the sequencer (R81, R89, R95; O42). -/

namespace Sys2Proof.Machine

section Requests

variable {s : State} {rest : List TsqMsg} {c r : Nat}

/-- The sequencer with a turn accepted: entry r, the counters and the level set (R81). -/
def State.turning (s : State) (rest : List TsqMsg) (c : Nat) : Tsq :=
  { s.tsq with
    inbox := rest, work := .turn c (nextPhysical s.vau.plan c), attempts := 0, heavy := 0, windowClosed := false
    failure := none, stopTaken := false, turnedBack := false, level := s.baseKnife (nextPhysical s.vau.plan c) }

theorem Tsq.refusesTurn_iff (t : Tsq) :
    t.refusesTurn = true ↔ t.arm ≠ .parked ∨ t.vacuum ≠ .off ∨ t.work ≠ .none := by
  simp [Tsq.refusesTurn, or_assoc]

theorem execTurnRequest_refused (inbox : s.tsq.inbox = .turn c :: rest)
    (refused : s.tsq.arm ≠ .parked ∨ s.tsq.vacuum ≠ .off ∨ s.tsq.work ≠ .none) :
    execTurnRequest s = .next ((s.setTsq { s.tsq with inbox := rest }).toOcc (.turn .armNotReady)) := by
  have refused : (s.setTsq { s.tsq with inbox := rest }).tsq.refusesTurn = true := (Tsq.refusesTurn_iff _).2 refused
  simp only [execTurnRequest, inbox, refused, if_true]
  exact State.tsqNext_of_ready id

theorem execTurnRequest_taken (inbox : s.tsq.inbox = .turn c :: rest) (parked : s.tsq.arm = .parked)
    (off : s.tsq.vacuum = .off) (idle : s.tsq.work = .none) :
    execTurnRequest s = s.tsqNext (s.setTsq (if s.ldu.bankLit then { s.turning rest c with stage := some .waitDark }
      else (s.turning rest c).beginPlatenUp s.profile)) := by
  have taken : ¬(s.setTsq { s.tsq with inbox := rest }).tsq.refusesTurn = true := fun h =>
    ((Tsq.refusesTurn_iff _).1 h).elim (· parked) (·.elim (· off) (· idle))
  simp only [execTurnRequest, inbox, if_neg taken]
  rfl

/-- A turn that is to try again is turned back in RELEASE (R95). -/
theorem State.stopTurn_releasing (none : s.tsq.failure = none) : s.stopTurn .release = s.setTsq s.tsq.turnBack :=
  if_neg (by simp [none])

/-- A turn whose failure is recorded ends with it (R95). -/
theorem State.stopTurn_released (recorded : s.tsq.failure ≠ none) : s.stopTurn .release = s :=
  if_pos (Option.isSome_iff_ne_none.2 recorded)

theorem execTsqStop_turn {g : Stage} (inbox : s.tsq.inbox = .stop :: rest) (work : s.tsq.work = .turn c r)
    (stage : s.tsq.stage = some g) : execTsqStop s
      = s.tsqNext ((s.setTsq { s.tsq with inbox := rest, stopTaken := true }).stopTurn g) := by
  simp only [execTsqStop, inbox, State.setTsq, work, stage]

theorem execTsqStop_platen (inbox : s.tsq.inbox = .stop :: rest) (work : s.tsq.work = .platen) :
    execTsqStop s = .next (s.setTsq { s.tsq with inbox := rest, stopTaken := true }) := by
  simp only [execTsqStop, inbox, State.setTsq, work]
  exact State.tsqNext_of_ready id

theorem execTsqStop_stray (inbox : s.tsq.inbox = .stop :: rest)
    (work : s.tsq.work = .none ∨ ∃ i, s.tsq.work = .park i) :
    execTsqStop s = .next (s.setTsq { s.tsq with inbox := rest }) := by
  obtain work | ⟨i, work⟩ := work
  all_goals
    simp only [execTsqStop, inbox, State.setTsq, work]
    exact State.tsqNext_of_ready id

end Requests

/-- Settles O42: the equations of the requests and of PLATEN_DOWN, and a STOP stage by stage. -/
theorem turnsBeginAndAreStopped : Obligations.TurnsBeginAndAreStopped := by
  unfold Obligations.TurnsBeginAndAreStopped
  refine ⟨State.settle_eq, fun c rest s inbox => ⟨fun refused => execTurnRequest_refused inbox refused,
    fun parked off idle => ?_⟩, fun rest s inbox => ⟨fun idle => ?_, fun busy => ?_⟩,
    fun s => ⟨fun closed => ?_, fun opened pressed => ?_, fun opened free => ?_⟩,
    fun s => ⟨fun work => ?_, fun c r work => ⟨fun back => ?_, fun back none => ?_, fun back lift => ?_,
      fun back double => ?_⟩⟩,
    fun rest s inbox => ⟨fun c r g work stage => ?_, fun work => ?_, fun stray => ?_⟩⟩
  · have taken := execTurnRequest_taken inbox parked off idle
    refine ⟨fun lit => ?_, fun dark up closed => ?_, fun dark notUp => ?_⟩
    · rw [if_pos lit] at taken
      exact taken.trans (State.tsqNext_of_ready id)
    · rw [dark, if_neg nofun, Tsq.beginPlatenUp_of_up (t := s.turning rest c) up closed] at taken
      exact taken.trans (State.tsqNext_of_ready (Tsq.not_ready_of_platen (by rw [up]; nofun) (by rw [up]; nofun)))
    · rw [dark, if_neg nofun, Tsq.beginPlatenUp_of_not_up (t := s.turning rest c) notUp] at taken
      exact taken
  · show execPlatenRequest s = _
    simp only [execPlatenRequest, inbox, if_pos idle]
    rfl
  · show execPlatenRequest s = _
    simp only [execPlatenRequest, inbox, if_neg busy]
    exact State.tsqNext_of_ready id
  · exact State.beginPlatenDown_closed closed
  · exact State.beginPlatenDown_pressed opened pressed
  · exact State.beginPlatenDown_drives opened free
  · exact State.finishDown_platen work
  · exact State.finishDown_turnedBack work back
  · exact State.finishDown_turned work back none
  · exact State.finishDown_failed work back lift
  · exact State.finishDown_failed work back double
  · have stop := execTsqStop_turn inbox work stage
    refine ⟨?_, ?_, ?_, ?_, ?_, ?_⟩
    · rintro (rfl | rfl) <;> exact stop
    · rintro (rfl | rfl) <;> exact stop.trans (State.tsqNext_of_ready id)
    · rintro (rfl | rfl) <;> exact stop.trans (State.tsqNext_of_ready id)
    · rintro rfl none
      rw [State.stopTurn_releasing (by exact none)] at stop
      exact stop.trans (State.tsqNext_of_ready id)
    · rintro rfl recorded
      rw [State.stopTurn_released (by exact recorded)] at stop
      exact stop.trans (State.tsqNext_of_ready id)
    · rintro (rfl | rfl | rfl | rfl | rfl) <;> exact stop.trans (State.tsqNext_of_ready id)
  · exact execTsqStop_platen inbox work
  · exact execTsqStop_stray inbox stray

end Sys2Proof.Machine
end

section
/-! SUPPORT. The events of the stages of a turn (R81 to R88, R91; O43). -/

namespace Sys2Proof.Machine

section Stages

variable {s : State} {c r : Nat}

/-! ### Failed attempts and lost leaves (R85, R86, R91) -/

/-- The sequencer after a failed attempt: the heavy readings, the failure when no attempt is left, and RELEASE
(R85, R86). -/
def Tsq.failing (t : Tsq) (p : Profile) (reading : LiftReading) : Tsq :=
  { t with
    heavy := if reading = .none then t.heavy else t.heavy + 1
    failure := if t.windowClosed = false ∧ t.attempts < p.attemptLimit then t.failure
      else some (if reading = .none then TurnFailure.liftFailed else .doubleLift)
    stage := some .release, vacuum := .off, foot := .lowered, stageWatch := some p.liftClass }

theorem State.failAttempt_eq (s : State) (r : Nat) (x : LiftReading) : s.failAttempt r x = { s with
    tsq := s.tsq.failing s.profile x
    vau := s.vau.failedAttempt r x
    host := s.host.issued .vau (ledgerWrites s.exp.base s.vau (s.vau.failedAttempt r x) false) } := by
  rw [State.failAttempt, State.changeAccount_writes _ _ _ (List.length_modify ..)]
  simp only [Bool.and_eq_true, Bool.not_eq_true', decide_eq_true_eq]
  rfl

theorem State.dropLeaf_eq (s : State) (r : Nat) : s.dropLeaf r = { s with
    exp := s.exp.raise .arm
    tsq := workEnded { s.tsq with arm := .held, vacuum := .off }
    occ := { s.occ with inbox := s.occ.inbox ++ [.turn (.failed .leafDropped r)] }
    vau := s.vau.setUncertain r true
    host := s.host.issued .vau (ledgerWrites s.exp.base s.vau (s.vau.setUncertain r true) false) } := by
  rw [State.dropLeaf, State.changeAccount_writes _ _ _ (List.length_modify ..)]
  rfl

theorem State.tsqNext_failAttempt (s : State) (r : Nat) (x : LiftReading) :
    s.tsqNext (s.failAttempt r x) = .next (s.failAttempt r x) :=
  State.tsqNext_of_ready (by rw [State.failAttempt_eq]; exact id)

/-! ### The events where a stage awaits them -/

theorem execUpSwitchCloses_platenUp (stage : s.tsq.stage = some .platenUp) : execUpSwitchCloses s
    = s.tsqNext (s.setTsq (Tsq.beginReach { s.tsq with upSw := true, platen := .up } s.profile)) :=
  congrArg (fun t => s.tsqNext (s.setTsq t)) (if_pos ((Tsq.inStage_iff _ _).2 stage))

theorem execEdgeReached_reach (work : s.tsq.work = .turn c r) (stage : s.tsq.stage = some .reach) :
    execEdgeReached s = .next (s.setTsq (s.tsq.beginSeparate s.profile (s.baseKnife r))) := by
  simp only [execEdgeReached, work, stage]
  exact State.tsqNext_of_ready id

theorem execBurstEnd_separate (stage : s.tsq.stage = some .separate) :
    execBurstEnd s = .next (s.setTsq (s.tsq.beginLift s.profile)) := by
  rw [execBurstEnd, if_pos ((Tsq.inStage_iff _ _).2 stage)]
  exact State.tsqNext_of_ready id

theorem execVacuumSwitchCloses_lift (stage : s.tsq.stage = some .lift) :
    execVacuumSwitchCloses s = .next (s.setTsq { s.tsq with stage := some .read, stageWatch := none }) := by
  rw [execVacuumSwitchCloses, if_pos ((Tsq.inStage_iff _ _).2 stage)]
  exact State.tsqNext_of_ready id

theorem execReadSettled_one (work : s.tsq.work = .turn c r) (stage : s.tsq.stage = some .read) :
    execReadSettled .one s = .next (s.setTsq (s.tsq.beginSweep s.profile)) := by
  simp only [execReadSettled, work, stage]
  exact State.tsqNext_of_ready id

theorem execReadSettled_failed (work : s.tsq.work = .turn c r) (stage : s.tsq.stage = some .read) :
    execReadSettled .none s = .next (s.failAttempt r .none)
    ∧ execReadSettled .two s = .next (s.failAttempt r .two)
    ∧ execReadSettled .many s = .next (s.failAttempt r .many) := by
  simp only [execReadSettled, work, stage]
  exact ⟨State.tsqNext_failAttempt .., State.tsqNext_failAttempt .., State.tsqNext_failAttempt ..⟩

theorem execVacuumSwitchOpens_read (work : s.tsq.work = .turn c r) (stage : s.tsq.stage = some .read) :
    execVacuumSwitchOpens s = .next (s.failAttempt r .none) := by
  simp only [execVacuumSwitchOpens, work, stage]
  exact State.tsqNext_failAttempt ..

theorem execVacuumSwitchOpens_release (work : s.tsq.work = .turn c r) (stage : s.tsq.stage = some .release) :
    execVacuumSwitchOpens s = s.tsqNext (s.endRelease r) := by
  simp only [execVacuumSwitchOpens, work, stage]

/-- RELEASE of a turn that ends goes on to RETURN (R87, R95). -/
theorem State.endRelease_returns (ends : s.tsq.turnedBack = true ∨ s.tsq.failure ≠ none) :
    s.endRelease r = s.setTsq (s.tsq.beginReturn s.profile) :=
  if_pos (by rwa [Bool.or_eq_true, Option.isSome_iff_ne_none])

/-- RELEASE of a turn that tries again goes on to SEPARATE (R86). -/
theorem State.endRelease_retries (back : s.tsq.turnedBack = false) (none : s.tsq.failure = none) :
    s.endRelease r = s.setTsq (s.tsq.beginSeparate s.profile (s.baseKnife r)) :=
  if_neg (by simp [back, none])

theorem execSweepEnd_sweep (stage : s.tsq.stage = some .sweep) :
    execSweepEnd s = .next (s.setTsq (s.tsq.beginSetDown s.profile)) := by
  rw [execSweepEnd, if_pos ((Tsq.inStage_iff _ _).2 stage)]
  exact State.tsqNext_of_ready id

theorem execVacuumSwitchOpens_sweep (work : s.tsq.work = .turn c r) (stage : s.tsq.stage = some .sweep) :
    execVacuumSwitchOpens s = s.tsqNext (s.dropLeaf r) := by
  simp only [execVacuumSwitchOpens, work, stage]

theorem execVacuumSwitchOpens_setDown (work : s.tsq.work = .turn c r) (stage : s.tsq.stage = some .setDown) :
    execVacuumSwitchOpens s = .next (s.setTsq (s.tsq.beginReturn s.profile)) := by
  simp only [execVacuumSwitchOpens, work, stage]
  exact State.tsqNext_of_ready id

/-! ### The events where no stage awaits them -/

theorem execEdgeReached_stray (h : s.tsq.stage ≠ some .reach) : execEdgeReached s = .next s := by
  unfold execEdgeReached
  split
  · next stage => exact absurd stage h
  · exact State.tsqNext_of_ready id

theorem execBurstEnd_stray (h : s.tsq.stage ≠ some .separate) : execBurstEnd s = .next s := by
  rw [execBurstEnd, if_neg (mt (Tsq.inStage_iff _ _).1 h)]
  exact State.tsqNext_of_ready id

theorem execVacuumSwitchCloses_stray (h : s.tsq.stage ≠ some .lift) : execVacuumSwitchCloses s = .next s := by
  rw [execVacuumSwitchCloses, if_neg (mt (Tsq.inStage_iff _ _).1 h)]
  exact State.tsqNext_of_ready id

theorem execReadSettled_stray (h : s.tsq.stage ≠ some .read) (x : LeafReading) : execReadSettled x s = .next s := by
  unfold execReadSettled
  split
  · next stage => exact absurd stage h
  · exact State.tsqNext_of_ready id

theorem execSweepEnd_stray (h : s.tsq.stage ≠ some .sweep) : execSweepEnd s = .next s := by
  rw [execSweepEnd, if_neg (mt (Tsq.inStage_iff _ _).1 h)]
  exact State.tsqNext_of_ready id

theorem execVacuumSwitchOpens_stray (read : s.tsq.stage ≠ some .read) (release : s.tsq.stage ≠ some .release)
    (sweep : s.tsq.stage ≠ some .sweep) (setDown : s.tsq.stage ≠ some .setDown) :
    execVacuumSwitchOpens s = .next s := by
  unfold execVacuumSwitchOpens
  split
  · next stage => exact absurd stage release
  · next stage => exact absurd stage setDown
  · next stage => exact absurd stage read
  · next stage => exact absurd stage sweep
  · exact State.tsqNext_of_ready id

/-! ### The watches (R86, R92) -/

/-- A watch expires unless it is stopped or of class 0. -/
theorem Watch.mayExpire_some {k : Nat} (h : k ≠ 0) : Watch.mayExpire (some k) = true := bne_iff_ne.2 h

theorem execRetryWindowExpiry_runs {k : Nat} (watch : s.tsq.retryWatch = some k) (class0 : k ≠ 0) :
    execRetryWindowExpiry s = .next (s.setTsq { s.tsq with retryWatch := none, windowClosed := true }) := by
  rw [execRetryWindowExpiry, watch, if_pos (Watch.mayExpire_some class0)]
  exact State.tsqNext_of_ready id

theorem execRetryWindowExpiry_class0 (watch : s.tsq.retryWatch = some 0) : execRetryWindowExpiry s = .next s := by
  rw [execRetryWindowExpiry, watch, if_neg (by decide)]
  exact State.tsqNext_of_ready id

end Stages

/-- Settles O43: each stage by the equation of the event that ends it. -/
theorem turnStagesFollowTheirEvents : Obligations.TurnStagesFollowTheirEvents := by
  unfold Obligations.TurnStagesFollowTheirEvents
  refine ⟨fun s stage => execUpSwitchCloses_platenUp stage, fun c r s work => ?_, fun s =>
    ⟨execEdgeReached_stray, execBurstEnd_stray, execVacuumSwitchCloses_stray, execReadSettled_stray,
      execSweepEnd_stray, execVacuumSwitchOpens_stray⟩, fun k s watch =>
    ⟨execRetryWindowExpiry_runs watch, ?_⟩⟩
  · intro failed
    have failAttempt_failed (x : LiftReading) : failed x (s.failAttempt r x) := by
      rw [State.failAttempt_eq]
      exact ⟨rfl, rfl⟩
    refine ⟨execEdgeReached_reach work, execBurstEnd_separate, execVacuumSwitchCloses_lift, fun read => ?_,
      fun release => ?_, fun sweep => ?_, execVacuumSwitchOpens_setDown work⟩
    · obtain ⟨none, two, many⟩ := execReadSettled_failed work read
      exact ⟨execReadSettled_one work read, ⟨_, failAttempt_failed _, none⟩, ⟨_, failAttempt_failed _, two⟩,
        ⟨_, failAttempt_failed _, many⟩, ⟨_, failAttempt_failed _, execVacuumSwitchOpens_read work read⟩⟩
    · have opens := execVacuumSwitchOpens_release work release
      refine ⟨fun ends => ?_, fun back none => ?_⟩
      · rw [State.endRelease_returns ends] at opens
        exact opens.trans (State.tsqNext_of_ready id)
      · rw [State.endRelease_retries back none] at opens
        exact opens.trans (State.tsqNext_of_ready id)
    · refine ⟨execSweepEnd_sweep sweep, s.dropLeaf r, execVacuumSwitchOpens_sweep work sweep, ?_⟩
      rw [State.dropLeaf_eq]
      exact ⟨rfl, rfl⟩
  · rintro rfl
    exact execRetryWindowExpiry_class0 watch

end Sys2Proof.Machine
end

section
/-! SUPPORT. The position switches and the pressure sensor (R79, R87 to R89, R94, R96; O44). -/

namespace Sys2Proof.Machine

section Switches

variable {s : State} {c r : Nat}

/-- At rest a switch moves a platen in the state of its line of R79. -/
theorem Tsq.platen_at_rest {t : Tsq} (rest : t.atRest = true) (p q : Platen) :
    (if t.atRest && t.platen == p then { t with platen := q } else t)
      = { t with platen := if t.platen = p then q else t.platen } := by
  by_cases h : t.platen = p <;> simp [rest, h]

/-- At rest a switch moves an arm in the state of its line of R79. -/
theorem Tsq.arm_at_rest {t : Tsq} (rest : t.atRest = true) (a b : Arm) :
    (if t.atRest && t.arm == a then { t with arm := b } else t)
      = { t with arm := if t.arm = a then b else t.arm } := by
  by_cases h : t.arm = a <;> simp [rest, h]

theorem Tsq.atRest_eq_false {t : Tsq} (busy : t.work ≠ .none ∨ t.arm = .dead) : t.atRest = false :=
  Bool.eq_false_iff.2 fun rest =>
    have ⟨idle, power⟩ := (Tsq.atRest_iff t).1 rest
    busy.elim (· idle) power

theorem Tsq.inStage_eq_false {t : Tsq} {g : Stage} (h : t.stage ≠ some g) : t.inStage g = false :=
  Bool.eq_false_iff.2 (mt (Tsq.inStage_iff t g).1 h)

theorem State.tsqNext_switch (s : State) (t : Tsq) (arm : t.arm = s.tsq.arm := by rfl)
    (platen : t.platen = s.tsq.platen := by rfl) : s.tsqNext (s.setTsq t) = .next (s.setTsq t) :=
  State.tsqNext_of_ready (Tsq.ready_congr arm platen).trans

/-! ### At rest (R79) -/

theorem execParkSwitchCloses_rest (rest : s.tsq.work = .none) : execParkSwitchCloses s
    = s.tsqNext (s.setTsq { s.tsq with
        parkSw := true
        arm := if s.tsq.arm = .held ∨ s.tsq.arm = .unknown then .parked else s.tsq.arm }) := by
  simp only [execParkSwitchCloses, rest]
  split <;> rfl

theorem execParkSwitchOpens_rest (rest : s.tsq.atRest = true) : execParkSwitchOpens s
    = s.tsqNext (s.setTsq { s.tsq with
        parkSw := false, arm := if s.tsq.arm = .parked then .unknown else s.tsq.arm }) :=
  congrArg (fun t => s.tsqNext (s.setTsq t)) (Tsq.arm_at_rest (t := { s.tsq with parkSw := false }) rest _ _)

theorem execUpSwitchCloses_rest (rest : s.tsq.atRest = true) (still : s.tsq.stage = none) : execUpSwitchCloses s
    = s.tsqNext (s.setTsq { s.tsq with
        upSw := true, platen := if s.tsq.platen = .unknown then .up else s.tsq.platen }) := by
  have moved := Tsq.platen_at_rest (t := { s.tsq with upSw := true }) rest .unknown .up
  rw [execUpSwitchCloses, Tsq.inStage_eq_false (by simp [still]), if_neg nofun, moved]

theorem execUpSwitchOpens_rest (rest : s.tsq.atRest = true) : execUpSwitchOpens s
    = s.tsqNext (s.setTsq { s.tsq with
        upSw := false, platen := if s.tsq.platen = .up then .unknown else s.tsq.platen }) :=
  congrArg (fun t => s.tsqNext (s.setTsq t)) (Tsq.platen_at_rest (t := { s.tsq with upSw := false }) rest _ _)

theorem execDownSwitchCloses_rest (rest : s.tsq.atRest = true) (still : s.tsq.stage = none) : execDownSwitchCloses s
    = s.tsqNext (s.setTsq { s.tsq with
        downSw := true, platen := if s.tsq.platen = .unknown then .down else s.tsq.platen }) := by
  have moved := Tsq.platen_at_rest (t := { s.tsq with downSw := true }) rest .unknown .down
  rw [execDownSwitchCloses, Tsq.inStage_eq_false (by simp [still]), if_neg nofun, moved]

theorem execDownSwitchOpens_rest (rest : s.tsq.atRest = true) : execDownSwitchOpens s
    = s.tsqNext (s.setTsq { s.tsq with
        downSw := false, platen := if s.tsq.platen = .down then .unknown else s.tsq.platen }) :=
  congrArg (fun t => s.tsqNext (s.setTsq t)) (Tsq.platen_at_rest (t := { s.tsq with downSw := false }) rest _ _)

/-! ### During work, and while the arm is DEAD (R79; log 15) -/

theorem execParkSwitchOpens_busy (busy : s.tsq.atRest = false) :
    execParkSwitchOpens s = .next (s.setTsq { s.tsq with parkSw := false }) := by
  have busy : Tsq.atRest { s.tsq with parkSw := false } = false := busy
  simp only [execParkSwitchOpens, busy, Bool.false_and]
  exact State.tsqNext_switch ..

theorem execUpSwitchOpens_busy (busy : s.tsq.atRest = false) :
    execUpSwitchOpens s = .next (s.setTsq { s.tsq with upSw := false }) := by
  have busy : Tsq.atRest { s.tsq with upSw := false } = false := busy
  simp only [execUpSwitchOpens, busy, Bool.false_and]
  exact State.tsqNext_switch ..

theorem execDownSwitchOpens_busy (busy : s.tsq.atRest = false) :
    execDownSwitchOpens s = .next (s.setTsq { s.tsq with downSw := false }) := by
  have busy : Tsq.atRest { s.tsq with downSw := false } = false := busy
  simp only [execDownSwitchOpens, busy, Bool.false_and]
  exact State.tsqNext_switch ..

theorem execUpSwitchCloses_busy (busy : s.tsq.atRest = false) (stage : s.tsq.stage ≠ some .platenUp) :
    execUpSwitchCloses s = .next (s.setTsq { s.tsq with upSw := true }) := by
  have busy : Tsq.atRest { s.tsq with upSw := true } = false := busy
  have stage : Tsq.inStage { s.tsq with upSw := true } .platenUp = false := Tsq.inStage_eq_false stage
  simp only [execUpSwitchCloses, busy, stage, Bool.false_and]
  exact State.tsqNext_switch ..

theorem execDownSwitchCloses_busy (busy : s.tsq.atRest = false) (stage : s.tsq.stage ≠ some .platenDown) :
    execDownSwitchCloses s = .next (s.setTsq { s.tsq with downSw := true }) := by
  have busy : Tsq.atRest { s.tsq with downSw := true } = false := busy
  have stage : Tsq.inStage { s.tsq with downSw := true } .platenDown = false := Tsq.inStage_eq_false stage
  simp only [execDownSwitchCloses, busy, stage, Bool.false_and]
  exact State.tsqNext_switch ..

theorem execParkSwitchCloses_busy (busy : s.tsq.work ≠ .none ∨ s.tsq.arm = .dead) (home : s.tsq.stage ≠ some .goHome)
    (retract : s.tsq.stage ≠ some .retract) (park : ∀ i, s.tsq.work ≠ .park i) :
    execParkSwitchCloses s = .next (s.setTsq { s.tsq with parkSw := true }) := by
  unfold execParkSwitchCloses
  dsimp only
  split
  · next work => exact absurd work (park _)
  · next stage => exact absurd stage home
  · next stage => exact absurd stage retract
  · next rest =>
    have dead : s.tsq.arm = .dead := busy.resolve_left (not_not.2 rest)
    rw [if_neg (by simp [dead])]
    exact State.tsqNext_switch ..
  · exact State.tsqNext_switch ..

/-! ### Where a stage or a PARK awaits the switch (R87 to R89, R94, R96) -/

theorem execDownSwitchCloses_platenDown (stage : s.tsq.stage = some .platenDown) : execDownSwitchCloses s
    = s.tsqNext ((s.setTsq { s.tsq with downSw := true }).arriveDown .down) :=
  congrArg s.tsqNext (if_pos ((Tsq.inStage_iff _ _).2 stage))

theorem execPressureReading_contact {n : Fin 1024} (stage : s.tsq.stage = some .platenDown)
    (pressed : s.profile.pressureLimit ≤ n.val) : execPressureReading n s
      = s.tsqNext ((s.setTsq { s.tsq with pressure := n.val }).arriveDown .contact) :=
  congrArg s.tsqNext (if_pos (Bool.and_eq_true_iff.2 ⟨(Tsq.inStage_iff _ _).2 stage, decide_eq_true pressed⟩))

theorem execPressureReading_kept {n : Fin 1024}
    (h : s.tsq.stage ≠ some .platenDown ∨ n.val < s.profile.pressureLimit) :
    execPressureReading n s = .next (s.setTsq { s.tsq with pressure := n.val }) := by
  unfold execPressureReading
  dsimp only
  split
  · next reached =>
    obtain ⟨stage, pressed⟩ := Bool.and_eq_true_iff.1 reached
    exact h.elim (absurd ((Tsq.inStage_iff _ _).1 stage))
      fun free => absurd (of_decide_eq_true pressed) (Nat.not_le.2 free)
  · exact State.tsqNext_switch ..

theorem execParkSwitchCloses_goHome (work : s.tsq.work = .turn c r) (stage : s.tsq.stage = some .goHome) :
    execParkSwitchCloses s = s.tsqNext (State.beginPlatenDown (s.setTsq { s.tsq with
      parkSw := true, arm := .parked, stageWatch := none })) := by
  simp only [execParkSwitchCloses, work, stage]
  rfl

theorem execParkSwitchCloses_retract (work : s.tsq.work = .turn c r) (stage : s.tsq.stage = some .retract) :
    execParkSwitchCloses s = s.tsqNext (State.answerTurn (s.setTsq { s.tsq with parkSw := true, arm := .parked })
      (.failed .stall r)) := by
  simp only [execParkSwitchCloses, work, stage, State.stallTurn, Tsq.lifted, State.setTsq]

theorem execParkSwitchCloses_park {i : Fin 16} (work : s.tsq.work = .park i) : execParkSwitchCloses s
    = s.tsqNext (State.answer (s.setTsq (Tsq.endWork { s.tsq with parkSw := true, arm := .parked })) i .done) := by
  simp only [execParkSwitchCloses, work]
  rfl

end Switches

/-- Settles O44: the switches at rest, during work, and where a stage or a PARK awaits them. -/
theorem switchesMoveTheStates : Obligations.SwitchesMoveTheStates := by
  unfold Obligations.SwitchesMoveTheStates
  refine ⟨fun s idle still power => ?_, fun s busy => ?_, fun s => execDownSwitchCloses_platenDown,
    fun n s => ⟨execPressureReading_contact, execPressureReading_kept⟩,
    fun c r s work => ⟨execParkSwitchCloses_goHome work, execParkSwitchCloses_retract work⟩,
    fun i s => execParkSwitchCloses_park⟩
  · have rest : s.tsq.atRest = true := (Tsq.atRest_iff _).2 ⟨idle, power⟩
    exact ⟨execParkSwitchCloses_rest idle, execParkSwitchOpens_rest rest, execUpSwitchCloses_rest rest still,
      execDownSwitchCloses_rest rest still, execUpSwitchOpens_rest rest, execDownSwitchOpens_rest rest⟩
  · have moving : s.tsq.atRest = false := Tsq.atRest_eq_false busy
    exact ⟨execParkSwitchOpens_busy moving, execUpSwitchOpens_busy moving, execDownSwitchOpens_busy moving,
      execUpSwitchCloses_busy moving, execDownSwitchCloses_busy moving, execParkSwitchCloses_busy busy⟩

end Sys2Proof.Machine
end

section
/-! SUPPORT. Stalls, retracts, PARK and ARM RESTORE (R33, R52, R92 to R94, R96, R97; O45). -/

namespace Sys2Proof.Machine

section Stalls

variable {s : State} {c r : Nat}

theorem Tsq.lifted_of_turn {t : Tsq} (work : t.work = .turn c r) : t.lifted = r := by
  rw [Tsq.lifted, work]

/-- A turn that stalls names its entry (R92; log 48). -/
theorem State.stallTurn_of_turn (work : s.tsq.work = .turn c r) : s.stallTurn = s.answerTurn (.failed .stall r) := by
  rw [State.stallTurn, Tsq.lifted_of_turn work]

/-! ### The expiry of a stage watch (R92 to R94, R96) -/

theorem execStageWatchExpiry_runs {k : Nat} (watch : s.tsq.stageWatch = some k) (class0 : k ≠ 0) :
    execStageWatchExpiry s = s.tsqNext s.stageExpired := by
  rw [execStageWatchExpiry, watch, if_pos (Watch.mayExpire_some class0)]

theorem execStageWatchExpiry_stopped (watch : s.tsq.stageWatch = none ∨ s.tsq.stageWatch = some 0) :
    execStageWatchExpiry s = .next s := by
  have stopped : s.tsq.stageWatch.mayExpire = false := by
    obtain watch | watch := watch <;> rw [watch] <;> rfl
  rw [execStageWatchExpiry, stopped, if_neg nofun]
  exact State.tsqNext_of_ready id

theorem State.stageExpired_park {i : Fin 16} (work : s.tsq.work = .park i) :
    s.stageExpired = (s.holdArm.setTsq s.holdArm.tsq.endWork).answer i .stall := by
  simp only [State.stageExpired, work]

theorem State.stageExpired_request (work : s.tsq.work = .platen) (stage : s.tsq.stage = some .platenDown) :
    s.stageExpired = (s.setTsq (Tsq.endWork { s.tsq with platen := .unknown })).toOcc (.platen false) := by
  simp only [State.stageExpired, State.platenStall, State.setTsq, work, stage]

theorem State.platenStall_turn (work : s.tsq.work = .turn c r) :
    s.platenStall = (s.setTsq { s.tsq with platen := .unknown }).answerTurn (.failed .stall r) := by
  rw [← State.stallTurn_of_turn (s := s.setTsq { s.tsq with platen := .unknown }) work]
  simp only [State.platenStall, State.setTsq, work]

theorem State.stageExpired_platen (work : s.tsq.work = .turn c r)
    (stage : s.tsq.stage = some .platenUp ∨ s.tsq.stage = some .platenDown) :
    s.stageExpired = (s.setTsq { s.tsq with platen := .unknown }).answerTurn (.failed .stall r) := by
  rw [← State.platenStall_turn work]
  obtain stage | stage := stage <;> simp only [State.stageExpired, work, stage]

theorem State.stageExpired_retract (work : s.tsq.work = .turn c r) (stage : s.tsq.stage = some .retract) :
    s.stageExpired = if s.tsq.cutWatch = none then s.holdArm.answerTurn (.failed .stall r)
      else s.cutArm.answerTurn (.failed .stall r) := by
  rw [← State.stallTurn_of_turn (s := s.holdArm) work, ← State.stallTurn_of_turn (s := s.cutArm) work]
  cases cut : s.tsq.cutWatch <;> simp only [State.stageExpired, work, stage, cut] <;> rfl

/-- In the other stages it is the arm that does not arrive (R92). -/
theorem State.stageExpired_arm {g : Stage} (work : s.tsq.work = .turn c r) (stage : s.tsq.stage = some g)
    (up : g ≠ .platenUp) (down : g ≠ .platenDown) (retract : g ≠ .retract) : s.stageExpired = s.armStall := by
  have stage_ne {g' : Stage} (other : g ≠ g') (h : s.tsq.stage = some g') : False :=
    other (Option.some.inj (stage.symm.trans h))
  unfold State.stageExpired
  split
  · next parking => exact nomatch work.symm.trans parking
  · next h _ => exact (stage_ne up h).elim
  · next h _ => exact (stage_ne down h).elim
  · next h _ => exact (stage_ne retract h).elim
  · rfl

section StallAction

variable (work : s.tsq.work = .turn c r)
include work

theorem State.armStall_hold (action : s.profile.stallAction = .hold) :
    s.armStall = s.holdArm.answerTurn (.failed .stall r) := by
  rw [State.armStall, action]
  exact State.stallTurn_of_turn (s := s.holdArm) work

theorem State.armStall_cut (action : s.profile.stallAction = .cut) :
    s.armStall = s.cutArm.answerTurn (.failed .stall r) := by
  rw [State.armStall, action]
  exact State.stallTurn_of_turn (s := s.cutArm) work

end StallAction

theorem State.armStall_retract (action : s.profile.stallAction = .retract) :
    s.armStall = s.setTsq (s.tsq.beginRetract s.profile false) := by
  rw [State.armStall, action]

theorem State.armStall_retractCut (action : s.profile.stallAction = .retractCut) :
    s.armStall = s.setTsq (s.tsq.beginRetract s.profile true) := by
  rw [State.armStall, action]

/-! ### The cut-delay watch (R94) -/

theorem execCutDelayExpiry_runs (watch : s.tsq.cutWatch ≠ none) :
    execCutDelayExpiry s = s.tsqNext s.cutArm.stallTurn := by
  rw [execCutDelayExpiry, if_pos (Option.isSome_iff_ne_none.2 watch)]

theorem execCutDelayExpiry_stopped (watch : s.tsq.cutWatch = none) : execCutDelayExpiry s = .next s := by
  rw [execCutDelayExpiry, watch, if_neg nofun]
  exact State.tsqNext_of_ready id

/-! ### PARK and ARM RESTORE (R33, R52, R96, R97) -/

theorem VolState.refusesArm_iff (v : VolState) : v.refusesArm = true ↔ v = .opening ∨ v = .closing := by
  cases v <;> simp [VolState.refusesArm]

theorem VolState.not_refusesArm {v : VolState} (opening : v ≠ .opening) (closing : v ≠ .closing) :
    v.refusesArm = false :=
  Bool.eq_false_iff.2 (mt v.refusesArm_iff.1 (not_or_intro opening closing))

variable {i : Fin 16}

theorem State.park_refused {release : Bool} (vol : s.vau.vol = .opening ∨ s.vau.vol = .closing) :
    s.park i release = s.answer i .busy := if_pos ((VolState.refusesArm_iff _).2 vol)

theorem State.park_dead {release : Bool} (taken : s.vau.vol.refusesArm = false) (dead : s.tsq.arm = .dead) :
    s.park i release = s.answer i .armDead := by
  rw [State.park, taken, if_neg nofun, if_pos dead]

theorem State.park_busy {release : Bool} (taken : s.vau.vol.refusesArm = false) (power : s.tsq.arm ≠ .dead)
    (busy : s.tsq.work ≠ .none) : s.park i release = s.answer i .busy := by
  rw [State.park, taken, if_neg nofun, if_neg power, if_pos busy]

theorem State.armRestore_refused (vol : s.vau.vol = .opening ∨ s.vau.vol = .closing) :
    s.armRestore i = s.answer i .busy := if_pos ((VolState.refusesArm_iff _).2 vol)

theorem State.armRestore_dead (taken : s.vau.vol.refusesArm = false) (dead : s.tsq.arm = .dead) :
    s.armRestore i = (s.setTsq { s.tsq with arm := .unknown, relayOpen := false }).answer i .done := by
  rw [State.armRestore, taken, if_neg nofun, if_pos dead]

theorem State.armRestore_powered (taken : s.vau.vol.refusesArm = false) (power : s.tsq.arm ≠ .dead) :
    s.armRestore i = s.answer i .notDead := by
  rw [State.armRestore, taken, if_neg nofun, if_neg power]

theorem execPark_taken {s' : State} {release : Bool} (taken : s.nextOrder .tsq = some (⟨i, .park release⟩, s')) :
    execPark s = s.tsqNext (s'.park i release) := by
  rw [execPark, taken]

theorem execArmRestore_taken {s' : State} (taken : s.nextOrder .tsq = some (⟨i, .armRestore⟩, s')) :
    execArmRestore s = s.tsqNext (s'.armRestore i) := by
  rw [execArmRestore, taken]

end Stalls

/-- Settles O45: the expiries by the work and the stage they find, and the two orders by their refusals in order. -/
theorem stallsAndParksEndTheMotion : Obligations.StallsAndParksEndTheMotion := by
  unfold Obligations.StallsAndParksEndTheMotion
  refine ⟨fun k s watch class0 => ?_, fun s => execStageWatchExpiry_stopped,
    fun s => ⟨execCutDelayExpiry_runs, fun c r => Tsq.lifted_of_turn, execCutDelayExpiry_stopped⟩,
    fun s s' i release order => ?_, fun s s' i order => ?_⟩
  · intro note answered
    have expires := execStageWatchExpiry_runs watch class0
    refine ⟨fun i work => ?_, fun work stage => ?_, fun c r g work stage => ?_⟩
    · rw [State.stageExpired_park work] at expires
      exact expires
    · rw [State.stageExpired_request work stage] at expires
      exact expires
    · intro held dead
      refine ⟨?_, ?_, fun up down retract => ?_⟩
      · intro platen
        rw [State.stageExpired_platen work (by rwa [stage, Option.some.injEq, Option.some.injEq])] at expires
        exact expires
      · rintro rfl
        rw [State.stageExpired_retract work stage] at expires
        exact expires
      · rw [State.stageExpired_arm work stage up down retract] at expires
        refine ⟨fun action => ?_, fun action => ?_, fun action => ?_, fun action => ?_⟩
        · rw [State.armStall_hold work action] at expires
          exact expires
        · rw [State.armStall_cut work action] at expires
          exact expires
        · rw [State.armStall_retract action] at expires
          exact expires.trans (State.tsqNext_of_ready id)
        · rw [State.armStall_retractCut action] at expires
          exact expires.trans (State.tsqNext_of_ready id)
  · have parks := execPark_taken order
    have kept := State.nextOrder_eq order
    generalize s'.exp.orders = orders at kept
    subst kept
    refine ⟨fun vol => ?_, fun opening closing => ?_⟩
    · rw [State.park_refused (by exact vol)] at parks
      exact parks.trans (State.tsqNext_of_ready id)
    have taken := VolState.not_refusesArm opening closing
    refine ⟨fun dead => ?_, fun power busy => ?_, fun parked idle => ?_, fun power away idle => ?_⟩
    · rw [State.park_dead (by exact taken) (by exact dead)] at parks
      exact parks.trans (State.tsqNext_of_ready id)
    · rw [State.park_busy (by exact taken) (by exact power) (by exact busy)] at parks
      exact parks.trans (State.tsqNext_of_ready id)
    · rw [State.park_of_rest (by exact taken) (by simp [parked]) (by exact idle), if_pos (by exact parked)] at parks
      exact parks.trans (State.tsqNext_of_ready id)
    · rw [State.park_of_rest (by exact taken) (by exact power) (by exact idle), if_neg (by exact away)] at parks
      exact parks.trans (State.tsqNext_of_ready (Tsq.not_ready_of_arm away))
  · have restores := execArmRestore_taken order
    have kept := State.nextOrder_eq order
    generalize s'.exp.orders = orders at kept
    subst kept
    refine ⟨fun vol => ?_, fun opening closing => ?_⟩
    · rw [State.armRestore_refused (by exact vol)] at restores
      exact restores.trans (State.tsqNext_of_ready id)
    have taken := VolState.not_refusesArm opening closing
    refine ⟨fun dead => ?_, fun power => ?_⟩
    · rw [State.armRestore_dead (by exact taken) (by exact dead)] at restores
      exact restores.trans (State.tsqNext_of_ready (Tsq.not_ready_of_arm (by simp [dead])))
    · rw [State.armRestore_powered (by exact taken) (by exact power)] at restores
      exact restores.trans (State.tsqNext_of_ready id)

end Sys2Proof.Machine
end

section
/-! SUPPORT. The strobe: what a request at the light unit takes, the banks it drives, and its end (R100, R103, R116,
R117, R119 to R121; O50). -/

namespace Sys2Proof.Machine

/-! ### Requests taken and notices sent -/

theorem State.nextLdu_cons {s : State} {m : LduMsg} {rest : List LduMsg} (inbox : s.ldu.inbox = m :: rest) :
    s.nextLdu = some (m, s.setLdu { s.ldu with inbox := rest }) := by
  rw [State.nextLdu, inbox]
  rfl

/-- The channels with the notices of R117 sent to those of a set. -/
def noticed (cch : Pair Cch) (chans : ChanSet) (f : Chan → Notice) : Pair Cch :=
  let told (cch : Pair Cch) (c : Chan) : Pair Cch :=
    cch.set c { cch.get c with notices := (cch.get c).notices ++ [f c] }
  let cch := if chans.left then told cch .left else cch
  if chans.right then told cch .right else cch

/-- Notices change nothing but the channels. -/
theorem State.notifyAll_eq (s : State) (chans : ChanSet) (f : Chan → Notice) :
    s.notifyAll chans f = { s with cch := noticed s.cch chans f } := by
  unfold State.notifyAll noticed
  cases chans.left <;> cases chans.right <;> rfl

theorem ExposureRec.notice_eq (r : ExposureRec) (kind : NoticeKind) (contact : Bool) : r.notice kind contact
    = fun c => ⟨kind, r.time, r.degraded, contact, if c = .left then r.chargeLeft else r.chargeRight⟩ := by
  funext c
  cases c <;> rfl

/-! ### The banks that a strobe drives (R100, R103) -/

theorem bankBit_getLsbD : ∀ b i : Fin 4, (bankBit b).getLsbD i.val = (i == b) := by decide

/-- The bits of the banks chosen, one mask each. -/
theorem getLsbD_banks (p : Fin 4 → Bool) (b : Fin 4) :
    let on (i : Fin 4) : BitVec 4 := if p i then bankBit i else 0
    (on 0 ||| on 1 ||| on 2 ||| on 3).getLsbD b.val = p b := by
  intro on
  have on_getLsbD (i : Fin 4) : (on i).getLsbD b.val = (p i && b == i) := by
    rw [← bankBit_getLsbD]
    cases chosen : p i <;> simp [on, chosen]
  simp only [BitVec.getLsbD_or, on_getLsbD]
  fin_cases b <;> simp

/-- A RETIRED bank gives no light (R103). -/
theorem bankLux_retired {s : State} {b : Fin 4} (retired : s.ldu.retired.getLsbD b.val = true) (kinds : Pair Kind) :
    bankLux s kinds b = 0 := if_pos retired

theorem State.drivenBanks_iff (s : State) (mask : BitVec 4) (b : Fin 4) :
    (s.drivenBanks mask).getLsbD b.val = true ↔ mask.getLsbD b.val = true
      ∧ s.ldu.retired.getLsbD b.val = false ∧ bankLux s s.pageKinds b ≠ 0 := by
  have bits : (s.drivenBanks mask).getLsbD b.val = (mask.getLsbD b.val && bankLux s s.pageKinds b != 0) :=
    getLsbD_banks (fun b => mask.getLsbD b.val && bankLux s s.pageKinds b != 0) b
  rw [bits, Bool.and_eq_true, bne_iff_ne]
  refine and_congr_right fun _ => ⟨fun lit => ⟨?_, lit⟩, And.right⟩
  exact Bool.eq_false_iff.2 fun retired => lit (bankLux_retired retired _)

theorem State.bankDrive_dark {s : State} (dark : s.ldu.record = none ∨ s.ldu.bankLit = false) (b : Fin 4) :
    s.bankDrive b = 0 := by
  unfold State.bankDrive
  split
  · next record =>
    have unlit : s.ldu.bankLit = false := dark.resolve_left (by simp [record])
    rw [unlit, Bool.false_and, if_neg nofun]
  · rfl

theorem State.bankDrive_lit {s : State} {r : ExposureRec} (record : s.ldu.record = some r)
    (lit : s.ldu.bankLit = true) (b : Fin 4) : s.bankDrive b = if r.driven.getLsbD b.val = true
      then (s.profile.kind
        (planAt s.vau.plan (if b.val < 2 then r.leftPage else r.rightPage)).kind).levels.getD b.val 0
      else 0 := by
  simp only [State.bankDrive, record, lit, Bool.true_and, bankLevel, bankPage]
  split_ifs <;> rfl

/-! ### The begin of a strobe (R116) -/

section Strobe

variable {s : State} {r : ExposureRec} {rest : List LduMsg}

theorem execFireRequest_admitted (inbox : s.ldu.inbox = .fire :: rest) (admitted : s.ldu.state = .admitted)
    (record : s.ldu.record = some r) :
    execFireRequest s = .next ((s.setLdu { s.ldu with inbox := rest }).fire r) := by
  simp only [execFireRequest, State.nextLdu_cons inbox, State.setLdu, admitted, record]

theorem State.fire_ready (ready : s.tsq.ready = true) : s.fire r = s.beginStrobe r := if_pos ready

theorem State.fire_notReady (fallen : ¬s.tsq.ready = true) : s.fire r
    = { s.notifyAll r.sides (r.notice .cut false) with
        ldu := exposureEnded s.ldu, occ := { s.occ with inbox := s.occ.inbox ++ [.fire .notReady] } } := by
  rw [State.fire, if_neg fallen, State.notifyAll_eq]
  rfl

theorem execFireRequest_notAdmitted (inbox : s.ldu.inbox = .fire :: rest) (other : s.ldu.state ≠ .admitted) :
    execFireRequest s = .next ((s.setLdu { s.ldu with inbox := rest }).toOcc (.fire .notAdmitted)) := by
  rw [execFireRequest, State.nextLdu_cons inbox]
  dsimp only
  split
  · next admitted _ => exact absurd admitted other
  · rfl

/-! ### The end of a strobe (R117, R119 to R121) -/

/-- The channels told, the fire request answered, and the lamps off. -/
theorem State.endStrobe_eq (s : State) (r : ExposureRec) (kind : NoticeKind) (reply : FireReply) :
    s.endStrobe r kind reply = State.lampsOff
      { s.notifyAll r.sides (fun c => ⟨kind, r.time, r.degraded, r.contact,
          if c = .left then r.chargeLeft else r.chargeRight⟩) with
        ldu := s.ldu, occ := { s.occ with inbox := s.occ.inbox ++ [.fire reply] } } := by
  rw [State.endStrobe, ExposureRec.notice_eq, State.notifyAll_eq]
  rfl

section Lit

variable (lit : s.ldu.state = .lit) (record : s.ldu.record = some r)
include lit record

theorem execStrobeEnd_lit : execStrobeEnd s = .next (s.endStrobe r r.endKind .strobeEnd) := by
  simp only [execStrobeEnd, lit, record]

theorem execAbortRequest_lit (inbox : s.ldu.inbox = .abort :: rest) : execAbortRequest s
    = .next ((s.setLdu { s.ldu with inbox := rest }).endStrobe r .cut .aborted) := by
  simp only [execAbortRequest, State.nextLdu_cons inbox, State.setLdu, lit, record]

theorem execInterlockFall_lit :
    execInterlockFall s = .next (if s.ldu.fall then s.endStrobe r .cut .notReady else s) := by
  simp only [execInterlockFall, lit, record]

theorem execOpenStringSense_lit (b : Fin 4) : execOpenStringSense b s
    = .next (if r.driven.getLsbD b.val then (s.setLdu { s.ldu with
        retired := s.ldu.retired ||| bankBit b
        record := some { r with driven := r.driven &&& ~~~ bankBit b, fault := true } }).toOcc .lampFault
      else s) := by
  simp only [execOpenStringSense, lit, record]

end Lit

section NotLit

variable (dark : s.ldu.state ≠ .lit)
include dark

theorem execStrobeEnd_dark : execStrobeEnd s = .next s := by
  unfold execStrobeEnd
  split
  · next lit _ => exact absurd lit dark
  · rfl

theorem execInterlockFall_dark : execInterlockFall s = .next s := by
  unfold execInterlockFall
  split
  · next lit _ => exact absurd lit dark
  · rfl

theorem execOpenStringSense_dark (b : Fin 4) : execOpenStringSense b s = .next s := by
  unfold execOpenStringSense
  split
  · next lit _ => exact absurd lit dark
  · rfl

theorem execAbortRequest_dark (inbox : s.ldu.inbox = .abort :: rest) :
    execAbortRequest s = .next ((s.setLdu { s.ldu with inbox := rest }).toOcc .done) := by
  rw [execAbortRequest, State.nextLdu_cons inbox]
  dsimp only
  split
  · next lit _ => exact absurd lit dark
  · rfl

end NotLit

/-- Bank lit falls with no turn that waits for it. -/
theorem State.lampsOff_alone (stage : s.tsq.stage ≠ some .waitDark) :
    s.lampsOff = { s with ldu := exposureEnded s.ldu } := if_neg stage

/-- A turn that waits for the dark begins PLATEN_UP in the same event (R81). -/
theorem State.lampsOff_awaited (stage : s.tsq.stage = some .waitDark) :
    s.lampsOff = { s with ldu := exposureEnded s.ldu, tsq := s.tsq.beginPlatenUp s.profile } := if_pos stage

end Strobe

/-- Settles O50: the fire under the interlock or not, the ends of a strobe, and the banks it drives. -/
theorem strobesFireUnderTheInterlock : Obligations.StrobesFireUnderTheInterlock := by
  unfold Obligations.StrobesFireUnderTheInterlock
  refine ⟨fun rest s inbox => ⟨fun r admitted record => ?_, execFireRequest_notAdmitted inbox⟩,
    fun r s lit record => ?_, fun s dark => ⟨execStrobeEnd_dark dark, execInterlockFall_dark dark,
      execOpenStringSense_dark dark, fun rest => execAbortRequest_dark dark⟩,
    fun s b => ⟨fun dark => State.bankDrive_dark dark b, fun r record lit => State.bankDrive_lit record lit b⟩,
    fun s => ⟨State.lampsOff_alone, fun stage => ⟨fun up closed => ?_, fun notUp => ?_⟩⟩⟩
  · have fires := execFireRequest_admitted inbox admitted record
    refine ⟨fun ready => ⟨s.drivenBanks r.mask, ?_, s.drivenBanks_iff r.mask⟩, fun notReady => ?_⟩
    · rw [State.fire_ready (by exact (Tsq.ready_iff _).2 ready)] at fires
      exact fires
    · rw [State.fire_notReady (by exact mt (Tsq.ready_iff _).1 notReady), ExposureRec.notice_eq,
        State.notifyAll_eq] at fires
      rw [State.notifyAll_eq]
      exact fires
  · intro ends
    have endStrobe_ends (kind : NoticeKind) (a : FireReply) (rest : List LduMsg) :
        (s.setLdu { s.ldu with inbox := rest }).endStrobe r kind a = ends kind a rest := by
      simp only [ends, State.endStrobe_eq, State.notifyAll_eq]
      rfl
    have falls := execInterlockFall_lit lit record
    refine ⟨?_, fun rest inbox => ?_, fun fall => ?_, fun stands => ?_, fun b driven => ?_, fun b dark => ?_⟩
    · exact (execStrobeEnd_lit lit record).trans (congrArg _ (endStrobe_ends ..))
    · exact (execAbortRequest_lit lit record inbox).trans (congrArg _ (endStrobe_ends ..))
    · rw [if_pos fall] at falls
      exact falls.trans (congrArg _ (endStrobe_ends ..))
    · rw [stands, if_neg nofun] at falls
      exact falls
    · have senses := execOpenStringSense_lit lit record b
      rw [if_pos driven] at senses
      refine ⟨_, senses, rfl, fun i => ?_⟩
      exact (BitVec.getLsbD_or ..).trans (congrArg _ (bankBit_getLsbD b i))
    · have senses := execOpenStringSense_lit lit record b
      rw [dark, if_neg nofun] at senses
      exact senses
  · rw [State.lampsOff_awaited stage, Tsq.beginPlatenUp_of_up up closed]
    rfl
  · rw [State.lampsOff_awaited stage, Tsq.beginPlatenUp_of_not_up notUp]

end Sys2Proof.Machine
end

section
/-! SUPPORT. The dose arithmetic (R103 to R108, R113; O47): the illuminances of an exposure, the bounds on its time,
and the charge of a page within its bound. -/

namespace Sys2Proof.Machine

/-! ### Illuminances (R103, R104) -/

/-- The banks of a request: those that face its pages (R101). -/
theorem bankMask_getLsbD (sides : ChanSet) (b : Fin 4) :
    (bankMask sides).getLsbD b.val = if b.val < 2 then sides.left else sides.right := by
  obtain ⟨left, right⟩ := sides
  revert left right b
  decide

/-- The illuminance of a bank of a request: none from a bank that takes no part or is RETIRED (R103). -/
theorem maskedLux_bankMask (s : State) (kinds : Pair Kind) (sides : ChanSet) (b : Fin 4) :
    maskedLux s kinds (bankMask sides) b
      = if (if b.val < 2 then sides.left else sides.right) && !s.ldu.retired.getLsbD b.val then
          (s.pfs.cradle.calibration.getD b.val 0
            * (s.profile.kind (if b.val < 2 then kinds.left else kinds.right)).levels.getD b.val 0 + 254) / 255
        else 0 := by
  have faced : kinds.get (bankPage b) = if b.val < 2 then kinds.left else kinds.right := by
    unfold bankPage
    split <;> rfl
  rw [maskedLux, bankMask_getLsbD, bankLux, bankLevel, faced]
  cases (if b.val < 2 then sides.left else sides.right) <;> cases s.ldu.retired.getLsbD b.val <;> rfl

/-! ### Bounds (R108) -/

/-- The bound of the volume is the bound of a page that gets the light of both; when both have light, one du of the
allowance stays back for the second rounding (R108). -/
theorem volumeBound_eq_pageBound (allowance l r : Nat) :
    volumeBound allowance l r = pageBound (allowance - if l ≠ 0 ∧ r ≠ 0 then 1 else 0) (l + r) := by
  unfold volumeBound pageBound
  by_cases left : l = 0 <;> by_cases right : r = 0 <;> simp [left, right]

theorem minBound_le (t : Nat) (b : Option Nat) : minBound t b ≤ t := by
  cases b with
  | none => exact le_rfl
  | some x => exact min_le_left t x

theorem minBound_le_bound (t x : Nat) : minBound t (some x) ≤ x := min_le_right t x

/-- The smaller of the two is one of the two. -/
theorem minBound_attained (t : Nat) (b : Option Nat) : minBound t b = t ∨ b = some (minBound t b) := by
  cases b with
  | none => exact .inl rfl
  | some x => exact (min_choice t x).imp id fun least => congrArg some least.symm

theorem Bounds.admissible_le_requested (b : Bounds) (t : Nat) : b.admissible t ≤ t :=
  (minBound_le ..).trans ((minBound_le ..).trans (minBound_le ..))

theorem Bounds.admissible_le_bound {b : Bounds} {x : Nat}
    (bound : b.left = some x ∨ b.right = some x ∨ b.volume = some x) (t : Nat) : b.admissible t ≤ x := by
  unfold Bounds.admissible
  rcases bound with left | right | volume
  · rw [left]
    exact (minBound_le ..).trans ((minBound_le ..).trans (minBound_le_bound ..))
  · rw [right]
    exact (minBound_le ..).trans (minBound_le_bound ..)
  · rw [volume]
    exact minBound_le_bound ..

theorem Bounds.admissible_attained (b : Bounds) (t : Nat) : b.admissible t = t ∨ b.left = some (b.admissible t)
    ∨ b.right = some (b.admissible t) ∨ b.volume = some (b.admissible t) := by
  have page := minBound_attained t b.left
  have pages := minBound_attained (minBound t b.left) b.right
  unfold Bounds.admissible
  rcases minBound_attained (minBound (minBound t b.left) b.right) b.volume with same | volume
  · rw [same]
    rcases pages with same | right
    · rw [same]
      exact page.imp id .inl
    · exact .inr (.inr (.inl right))
  · exact .inr (.inr (.inr volume))

/-! ### Charges (R113) -/

/-- A charge rounded up stays within a whole number of du when the charge itself does. -/
theorem pageCharge_le_iff {lux time n : Nat} : pageCharge lux time ≤ n ↔ lux * time ≤ 1000 * n := by
  unfold pageCharge ceilDiv
  omega

@[simp] theorem pageCharge_dark (time : Nat) : pageCharge 0 time = 0 :=
  Nat.le_zero.1 (pageCharge_le_iff.2 (Nat.zero_mul time).le)

/-- At a time within its bound the light of a page stays within the allowance (R108). -/
theorem mul_le_of_pageBound {allowance lux time : Nat}
    (within : ∀ x, pageBound allowance lux = some x → time ≤ x) : lux * time ≤ 1000 * allowance := by
  by_cases dark : lux = 0
  · rw [dark, zero_mul]
    exact Nat.zero_le _
  · rw [mul_comm]
    exact (Nat.le_div_iff_mul_le (Nat.pos_of_ne_zero dark)).1 (within _ (if_neg dark))

theorem pageCharge_le_of_pageBound {allowance lux time : Nat}
    (within : ∀ x, pageBound allowance lux = some x → time ≤ x) : pageCharge lux time ≤ allowance :=
  pageCharge_le_iff.2 (mul_le_of_pageBound within)

/-- At a time within the volume's bound the two charges, each rounded up for itself, stay within the allowance of
the volume (R108, R113). -/
theorem pageCharge_add_le_of_volumeBound {allowance l r time : Nat}
    (within : ∀ x, volumeBound allowance l r = some x → time ≤ x) :
    pageCharge l time + pageCharge r time ≤ allowance := by
  rw [volumeBound_eq_pageBound] at within
  by_cases left : l = 0
  · subst left
    simpa using pageCharge_le_of_pageBound within
  · by_cases right : r = 0
    · subst right
      simpa using pageCharge_le_of_pageBound within
    · have light := mul_le_of_pageBound within
      rw [if_pos ⟨left, right⟩, add_mul] at light
      unfold pageCharge ceilDiv
      omega

/-- A charge within what a limit leaves above a dose takes the dose to the limit at most. -/
theorem add_le_max_of_le_sub {dose charge limit : Nat} (within : charge ≤ limit - dose) :
    dose + charge ≤ max limit dose := by
  omega

/-- Settles O47: the stages of the arithmetic, and the charges at a time within its bounds. -/
theorem doseBoundsKeepEveryAllowance : Obligations.DoseBoundsKeepEveryAllowance := by
  unfold Obligations.DoseBoundsKeepEveryAllowance
  refine ⟨fun s sides cls => ?_, fun s sides cls time => ?_⟩
  · intro d level lit lux spill
    have masked : maskedLux s s.pageKinds (bankMask sides) = lux := funext (maskedLux_bankMask s s.pageKinds sides)
    refine ⟨?_, ?_, ?_, ?_, fun b bound => Bounds.admissible_le_bound bound _,
      Bounds.admissible_le_requested .., Bounds.admissible_attained ..⟩
    · exact congrArg (pageLux · s.pfs.cradle.spill .left) masked
    · exact congrArg (pageLux · s.pfs.cradle.spill .right) masked
    · obtain ⟨left, right⟩ := sides
      cases left <;> cases right <;> rfl
    · intro allowance budget most others bound
      have allowed : volumeAllowance s.profile cls s.ldu.volDose = most - s.ldu.volDose := by cases cls <;> rfl
      have volume : volumeBound (volumeAllowance s.profile cls s.ldu.volDose) d.luxLeft d.luxRight
          = bound (most - s.ldu.volDose - others) (d.luxLeft + d.luxRight) := by
        rw [volumeBound_eq_pageBound, allowed]
        rfl
      exact congrArg (Bounds.mk _ _) volume
  · intro d cap dose budget most within
    have bounded {x : Nat} (bound : d.bounds.left = some x ∨ d.bounds.right = some x ∨ d.bounds.volume = some x) :
        time ≤ x := within.trans (Bounds.admissible_le_bound bound _)
    have volume : pageCharge d.luxLeft time + pageCharge d.luxRight time
        ≤ volumeAllowance s.profile cls s.ldu.volDose :=
      pageCharge_add_le_of_volumeBound fun x bound => bounded (.inr (.inr bound))
    have allowed : volumeAllowance s.profile cls s.ldu.volDose = most - s.ldu.volDose := by cases cls <;> rfl
    rw [allowed] at volume
    exact ⟨add_le_max_of_le_sub (pageCharge_le_of_pageBound fun x bound => bounded (.inl bound)),
      add_le_max_of_le_sub (pageCharge_le_of_pageBound fun x bound => bounded (.inr (.inl bound))),
      add_le_max_of_le_sub volume⟩

end Sys2Proof.Machine
end

section
/-! SUPPORT. An admission: the answer to a request, the charge of one that fits, and its writes (R102, R110 to R114;
O48). -/

namespace Sys2Proof.Machine

/-! ### The charge (R113, R114) -/

/-- The dose of a side after a charge to one side of an entry of the ledger (R113). -/
theorem Ldu.dose_addDose {l m : Ldu} {e x : Nat} {side : Side} (charged : m.sideDose = addDose l.sideDose e side x)
    {j : Nat} (inside : j < l.sideDose.length) (other : Side) :
    m.dose j other = l.dose j other + if j = e ∧ other = side then x else 0 := by
  obtain ⟨p, here⟩ : ∃ p, l.sideDose[j]? = some p := ⟨_, List.getElem?_eq_getElem inside⟩
  by_cases same : j = e
  · subst same
    cases side <;> cases other <;> simp [Ldu.dose, charged, addDose, here]
  · have stands : m.sideDose.getD j (0, 0) = l.sideDose.getD j (0, 0) := by
      simp [charged, addDose, Ne.symm same]
    cases other <;> simp only [Ldu.dose, stands, same, false_and, if_false, Nat.add_zero]

/-- The doses after the charges of both pages: each page's side takes its own charge (R113). -/
theorem Ldu.dose_charged {l m : Ldu} {e r dl dr : Nat}
    (charged : m.sideDose = addDose (addDose l.sideDose e .verso dl) r .recto dr) {j : Nat}
    (inside : j < l.sideDose.length) (side : Side) : m.dose j side = l.dose j side
      + if j = e ∧ side = .verso then dl else if j = r ∧ side = .recto then dr else 0 := by
  let half : Ldu := { l with sideDose := addDose l.sideDose e .verso dl }
  have left : half.dose j side = l.dose j side + if j = e ∧ side = .verso then dl else 0 :=
    Ldu.dose_addDose rfl inside side
  have right := Ldu.dose_addDose (l := half) charged (by simpa [half, addDose] using inside) side
  rw [right, left]
  cases side <;> simp

theorem State.doseAddr_verso (s : State) (e : Nat) : s.doseAddr e .verso = s.area + 0x8100 + 192 * e + 20 := by
  simp only [State.doseAddr, ledgerEntryOffset, sideOffset]
  omega

theorem State.doseAddr_recto (s : State) (e : Nat) : s.doseAddr e .recto = s.area + 0x8100 + 192 * e + 92 := by
  simp only [State.doseAddr, ledgerEntryOffset, sideOffset]
  omega

/-- The writes of a charge: the doses of the two sides, and then the volume dose (R114). -/
theorem State.charge_host (s : State) (sides : ChanSet) (cls : ExpClass) (d : DoseCase) :
    (s.charge sides cls d).host = s.host.issued .ldu
      [(s.area + 0x8100 + 192 * s.vau.cursor + 20, leBytes ((s.charge sides cls d).ldu.dose s.vau.cursor .verso) 4),
        (s.area + 0x8100 + 192 * s.vau.rightEntry + 92,
          leBytes ((s.charge sides cls d).ldu.dose s.vau.rightEntry .recto) 4),
        (s.area + 0x8010, leBytes (s.charge sides cls d).ldu.volDose 8)] := by
  rw [← State.doseAddr_verso, ← State.doseAddr_recto]
  simp only [State.charge, State.issue_eq, HostSide.issued_append]
  rfl

/-! ### The answer (R102, R110 to R112) -/

theorem DoseCase.fits_iff (d : DoseCase) (p : Profile) :
    d.fits p = true ↔ d.time = d.requested ∨ p.tMin ≤ d.time := by
  simp [DoseCase.fits]

/-- A request whose two sides do not fit together is SPLIT (R111). -/
theorem State.shortfall_both (s : State) (d : DoseCase) : s.shortfall ⟨true, true⟩ d = .split := rfl

/-- A side that does not fit is withheld or ends the work, as the profile has it (R112). -/
theorem State.shortfall_single (s : State) (c : Chan) (d : DoseCase) :
    s.shortfall ⟨c == .left, c == .right⟩ d = if s.profile.doseMode = .withhold then
      .withheld c d.bounds.shortest else .doseLimit c d.bounds.shortest := by
  cases c <;> rfl

section Request

variable {s : State} {sides : ChanSet} {cls : ExpClass} {rest : List LduMsg}

theorem execAdmissionRequest_idle (inbox : s.ldu.inbox = .request sides cls :: rest) (idle : s.ldu.state = .idle) :
    execAdmissionRequest s = .next ((s.setLdu { s.ldu with inbox := rest }).considerAdmission sides cls) := by
  rw [execAdmissionRequest, State.nextLdu_cons inbox]
  exact congrArg _ (if_pos idle)

theorem execAdmissionRequest_busy (inbox : s.ldu.inbox = .request sides cls :: rest)
    (other : s.ldu.state ≠ .idle) : execAdmissionRequest s
      = .next ((s.setLdu { s.ldu with inbox := rest }).toOcc (.admission .busy)) := by
  rw [execAdmissionRequest, State.nextLdu_cons inbox]
  exact congrArg _ (if_neg other)

theorem State.considerAdmission_fits (fits : (s.doseCase sides cls).fits s.profile = true) :
    s.considerAdmission sides cls = s.charge sides cls (s.doseCase sides cls) := if_pos fits

theorem State.considerAdmission_short (short : ¬(s.doseCase sides cls).fits s.profile = true) :
    s.considerAdmission sides cls = s.toOcc (.admission (s.shortfall sides (s.doseCase sides cls))) := if_neg short

end Request

/-! ### The bound that fell short (R112) -/

/-- A bound that exists and is no larger than another, if that one exists. -/
def boundLe (x y : Option Nat) : Bool :=
  match x, y with
  | some a, some c => a ≤ c
  | some _, none => true
  | none, _ => false

theorem boundLe_iff (x y : Option Nat) : boundLe x y = true ↔ ∃ a, x = some a ∧ ∀ c, y = some c → a ≤ c := by
  cases x <;> cases y <;> simp [boundLe]

theorem Bounds.shortest_eq (b : Bounds) : b.shortest
    = if boundLe b.left b.right && boundLe b.left b.volume then .sideLeft
      else if boundLe b.right b.volume then .sideRight else .volume := rfl

theorem Bounds.shortest_eq_sideLeft (b : Bounds) : b.shortest = .sideLeft ↔
    ∃ x, b.left = some x ∧ (∀ y, b.right = some y → x ≤ y) ∧ (∀ z, b.volume = some z → x ≤ z) := by
  have least : b.shortest = .sideLeft ↔ boundLe b.left b.right = true ∧ boundLe b.left b.volume = true := by
    rw [Bounds.shortest_eq, ← Bool.and_eq_true]
    split_ifs <;> simp_all
  rw [least, boundLe_iff, boundLe_iff]
  constructor
  · rintro ⟨⟨x, left, right⟩, x', left', volume⟩
    cases left.symm.trans left'
    exact ⟨x, left, right, volume⟩
  · rintro ⟨x, left, right, volume⟩
    exact ⟨⟨x, left, right⟩, x, left, volume⟩

theorem Bounds.shortest_eq_sideRight (b : Bounds) : b.shortest = .sideRight ↔ b.shortest ≠ .sideLeft
    ∧ ∃ y, b.right = some y ∧ ∀ z, b.volume = some z → y ≤ z := by
  rw [← boundLe_iff, Bounds.shortest_eq]
  split_ifs <;> simp_all

/-- Settles O48: the charge of a request that fits, the answers to the others, and the bound they name. -/
theorem admissionChargesOrRefuses : Obligations.AdmissionChargesOrRefuses := by
  unfold Obligations.AdmissionChargesOrRefuses
  refine ⟨fun sides cls rest s inbox => ?_, fun b => ⟨b.shortest_eq_sideLeft, b.shortest_eq_sideRight⟩⟩
  intro d fits answered l r chargeLeft chargeRight
  let taken : State := s.setLdu { s.ldu with inbox := rest }
  have refused (idle : s.ldu.state = .idle) (short : ¬fits) :
      exec .admissionRequest s = .next (answered (s.shortfall sides d)) :=
    (execAdmissionRequest_idle inbox idle).trans
      (congrArg _ (State.considerAdmission_short (s := taken) (mt (d.fits_iff s.profile).1 short)))
  refine ⟨execAdmissionRequest_busy inbox, fun idle fit => ?_, fun idle short both => ?_,
    fun idle short c single => ⟨fun withhold => ?_, fun halt => ?_⟩⟩
  · have charged := State.considerAdmission_fits (s := taken) ((d.fits_iff s.profile).2 fit)
    refine ⟨taken.charge sides cls d, (execAdmissionRequest_idle inbox idle).trans (congrArg _ charged),
      rfl, rfl, rfl, fun e side inside => ?_, ?_⟩
    · exact Ldu.dose_charged (l := taken.ldu) (taken.charge_ldu sides cls d).1 inside side
    · rw [State.charge_host]
      rfl
  · rw [refused idle short, both, State.shortfall_both]
  · rw [refused idle short, single, State.shortfall_single, if_pos withhold]
  · rw [refused idle short, single, State.shortfall_single, if_neg (by rw [halt]; nofun)]

end Sys2Proof.Machine
end

section
/-! SUPPORT. An admitted exposure that is abandoned or cancelled, and the completion of its charge (R102, R114, R115,
R118; O49). -/

namespace Sys2Proof.Machine

/-! ### Notices (R117) -/

/-- The notices of a set of channels, channel by channel. -/
theorem noticed_get (cch : Pair Cch) (chans : ChanSet) (f : Chan → Notice) (c : Chan) :
    (noticed cch chans f).get c = if chans.has c = true
      then { cch.get c with notices := (cch.get c).notices ++ [f c] } else cch.get c := by
  obtain ⟨left, right⟩ := chans
  cases c <;> cases left <;> cases right <;> rfl

section Exposure

variable {s : State} {r : ExposureRec} {rest : List LduMsg}

/-! ### The charge complete (R114, R115) -/

section Charging

variable (charging : s.ldu.state = .charging) (record : s.ldu.record = some r)
include charging record

theorem execChargeWritesComplete_admitted (stands : s.ldu.abandoned = false) : execChargeWritesComplete s
    = .next (((s.land (fun w => w.writer == .ldu)).setLdu { s.ldu with state := .admitted }).toOcc
        (.admission (.admitted r.time r.degraded))) := by
  rw [execChargeWritesComplete, charging, record]
  exact congrArg _ (if_neg (Bool.eq_false_iff.1 stands))

theorem execChargeWritesComplete_abandoned (abandoned : s.ldu.abandoned = true) : execChargeWritesComplete s
    = .next (((s.land (fun w => w.writer == .ldu)).setLdu s.ldu.idle).toOcc (.admission .abandoned)) := by
  rw [execChargeWritesComplete, charging, record]
  exact congrArg _ (if_pos abandoned)

end Charging

/-! ### Abandon and cancel (R102, R115, R118) -/

theorem execAbandonRequest_charging (inbox : s.ldu.inbox = .abandon :: rest) (charging : s.ldu.state = .charging) :
    execAbandonRequest s = .next (s.setLdu { s.ldu with inbox := rest, abandoned := true }) := by
  simp only [execAbandonRequest, State.nextLdu_cons inbox, State.setLdu, charging]

theorem execAbandonRequest_admitted (inbox : s.ldu.inbox = .abandon :: rest) (admitted : s.ldu.state = .admitted) :
    execAbandonRequest s = .next ((s.setLdu (exposureEnded { s.ldu with inbox := rest })).toOcc .done) := by
  simp only [execAbandonRequest, State.nextLdu_cons inbox, State.setLdu, admitted]
  rfl

theorem execAbandonRequest_other (inbox : s.ldu.inbox = .abandon :: rest)
    (other : s.ldu.state = .idle ∨ s.ldu.state = .lit) :
    execAbandonRequest s = .next ((s.setLdu { s.ldu with inbox := rest }).toOcc .done) := by
  rcases other with state | state <;>
    simp only [execAbandonRequest, State.nextLdu_cons inbox, State.setLdu, state]

variable {chans : ChanSet}

theorem execCancelRequest_admitted (inbox : s.ldu.inbox = .cancel chans :: rest) (admitted : s.ldu.state = .admitted)
    (record : s.ldu.record = some r) : execCancelRequest s
      = .next { s.notifyAll chans (r.notice .cut false) with
          ldu := exposureEnded { s.ldu with inbox := rest }
          occ := { s.occ with inbox := s.occ.inbox ++ [.done] } } := by
  simp only [execCancelRequest, State.nextLdu_cons inbox, State.setLdu, admitted, record, State.notifyAll_eq]
  rfl

theorem execCancelRequest_other (inbox : s.ldu.inbox = .cancel chans :: rest) (other : s.ldu.state ≠ .admitted) :
    execCancelRequest s = .next ((s.setLdu { s.ldu with inbox := rest }).toOcc .done) := by
  rw [execCancelRequest, State.nextLdu_cons inbox]
  dsimp only
  split
  · next admitted _ => exact absurd admitted other
  · rfl

end Exposure

/-- Settles O49: the notices, the charge that stands in host memory, and an exposure abandoned or cancelled. -/
theorem chargesStandWhenAbandoned : Obligations.ChargesStandWhenAbandoned := by
  unfold Obligations.ChargesStandWhenAbandoned
  refine ⟨fun s chans f => ⟨_, s.notifyAll_eq chans f, noticed_get s.cch chans f⟩, fun s r charging record => ?_,
    fun rest s inbox => ⟨execAbandonRequest_charging inbox, execAbandonRequest_admitted inbox,
      execAbandonRequest_other inbox⟩,
    fun chans rest s inbox => ⟨fun r admitted record => ?_, execCancelRequest_other inbox⟩⟩
  · have landed := s.land_completed (fun w => w.writer == .ldu)
    cases abandoned : s.ldu.abandoned with
    | false => exact ⟨_, execChargeWritesComplete_admitted charging record abandoned, rfl, landed,
        fun _ => ⟨rfl, rfl⟩, nofun⟩
    | true => exact ⟨_, execChargeWritesComplete_abandoned charging record abandoned, rfl, landed, nofun,
        fun _ => ⟨rfl, rfl⟩⟩
  · rw [← ExposureRec.notice_eq]
    exact execCancelRequest_admitted inbox admitted record

end Sys2Proof.Machine
end

section
/-! SUPPORT. The judgement of a take (R131, R133 to R135, R156 to R158; O54): the slots aged, the focus gate and the
score, the outcome by Table 7-2, and the end of a frame. -/

namespace Sys2Proof.Machine

/-! ### The side-band slots at a judgement (R156 to R158) -/

theorem Cch.ageSlots_aged (x : Cch) : agedSlots x x.ageSlots := ⟨rfl, x.slot_mapSlots _⟩

theorem SbSlot.score_eq_slotScore (b : SbSlot) : b.score = slotScore b := by
  have byte (i : Nat) : byteAt (b.payload.take b.length) i
      = if i < b.length then (b.payload.getD i 0).toNat else 0 := by
    simp only [byteAt, List.getD_eq_getElem?_getD, List.getElem?_take]
    split <;> rfl
  simp only [SbSlot.score, leNat, byte, slotScore, Nat.mul_zero, Nat.add_zero, Nat.zero_add]

theorem SbSlot.passes_iff (b : SbSlot) (m : Nat) : b.passes m = true
    ↔ b.valid = true ∧ b.age < 3 ∧ b.checkError = false ∧ m ≤ slotScore b := by
  simp only [SbSlot.passes, SbSlot.score_eq_slotScore, Bool.and_eq_true, decide_eq_true_eq,
    Bool.not_eq_true', and_assoc]

theorem Profile.gateSlot_eq_some (p : Profile) (i : Fin 4) : p.gateSlot = some i ↔ p.gate = i.val + 1 := by
  unfold Profile.gateSlot
  split
  · simp only [Option.some.injEq, Fin.ext_iff]
    omega
  · simp only [reduceCtorEq, false_iff]
    omega

/-- The focus gate test is that of the slot the profile names, where it names one (R157). -/
theorem Cch.gatePasses_iff (s : State) (c : Chan) :
    (s.cch.get c).gatePasses s.profile = true ↔ gatePassed s c := by
  unfold Cch.gatePasses gatePassed
  simp only [← Profile.gateSlot_eq_some, ← SbSlot.passes_iff]
  cases s.profile.gateSlot with
  | none => exact ⟨fun _ => nofun, fun _ => rfl⟩
  | some g => exact ⟨fun h i same => Option.some.inj same ▸ h, fun h => h g rfl⟩

theorem Cch.focusScore_none (x : Cch) {p : Profile} (gate : p.gate = 0) : x.focusScore p = 0 := by
  unfold Cch.focusScore
  split
  · rfl
  · next i named => exact absurd ((p.gateSlot_eq_some i).1 named) (by omega)

theorem Cch.focusScore_slot (x : Cch) {p : Profile} {i : Fin 4} (gate : p.gate = i.val + 1) :
    x.focusScore p = if (x.slot i).valid then slotScore (x.slot i) else 0 := by
  rw [Cch.focusScore, (p.gateSlot_eq_some i).2 gate, ← SbSlot.score_eq_slotScore]

/-! ### The outcome and the result (Tables 7-2 and 7-3) -/

theorem TakeRec.noticeOf_some {t : TakeRec} {n : Notice} (notice : t.notice = some n) : t.noticeOf = n := by
  rw [TakeRec.noticeOf, notice, Option.getD_some]

theorem TakeRec.judgement_some {t : TakeRec} {n : Notice} (notice : t.notice = some n) (c : Chan) (o : Outcome)
    (check : Nat) (faulted : Bool) : t.judgement c o check faulted
      = ⟨c, t.leaf, t.side, t.panel, o, check, n.degraded, n.contact, faulted, false⟩ := by
  rw [TakeRec.judgement, TakeRec.noticeOf_some notice]

theorem Cch.resultOf_spec {s : State} {c : Chan} {t : TakeRec} {n : Notice} (notice : t.notice = some n)
    (o : Outcome) (filled check : Nat) :
    resultFor s c t n o filled check ((s.cch.get c).resultOf t s.profile o filled check) := by
  refine ⟨?_, Cch.focusScore_none _, fun i => Cch.focusScore_slot _⟩
  rw [Cch.resultOf, TakeRec.noticeOf_some notice]

/-- The lines of Table 7-2, by the kind of the notice and then in their order (R133). -/
theorem judge_exposed (cap length : Nat) (ok gate : Bool) :
    let o := judge .exposed (decide (cap < length)) ok gate
    (cap < length → o = .truncated)
    ∧ (length ≤ cap → ok = false → o = .checkError)
    ∧ (length ≤ cap → ok = true → ¬gate = true → o = .soft)
    ∧ (length ≤ cap → ok = true → gate = true → o = .accepted) := by
  refine ⟨fun larger => if_pos (decide_eq_true larger), fun fits bad => ?_, fun fits good soft => ?_,
    fun fits good sharp => ?_⟩
  all_goals rw [judge, if_neg (by simpa using fits)]
  · rw [bad]
    rfl
  · rw [good, Bool.eq_false_iff.2 soft]
    rfl
  · rw [good, sharp]
    rfl

/-! ### The end of a frame (R131, R134, R135) -/

/-- The outcome of a take whose frame ends: the first line of Table 7-2 that applies. -/
def State.frameOutcome (s : State) (c : Chan) (t : TakeRec) (ok : Bool) : Outcome :=
  judge t.noticeOf.kind (t.desc.cap < (s.cch.get c).bodyLength) ok ((s.cch.get c).gatePasses s.profile)

/-- The result of a take whose frame ends (Table 7-3). -/
def State.frameResult (s : State) (c : Chan) (t : TakeRec) (o : Outcome) : Result :=
  (s.cch.get c).resultOf t s.profile o (s.cch.get c).written (~~~ (s.cch.get c).crc).toNat

/-- The take judged and reported, its result not yet issued (R134). -/
def State.frameJudged (s : State) (c : Chan) (t : TakeRec) (o : Outcome) : State :=
  (s.setCch c { (s.cch.get c).ageSlots with
    frameWatch := none, lastDone := some (s.cch.get c).takeId, intake := .between
    result := some ⟨s.frameResult c t o, o == .accepted, true⟩ }).report
      (t.judgement c o (~~~ (s.cch.get c).crc).toNat false)

section FrameEnd
variable {s : State} {c : Chan} {t : TakeRec} {ok : Bool}

theorem State.endFrame_accepted (take : (s.cch.get c).take = some t) (accepted : s.frameOutcome c t ok = .accepted) :
    s.endFrame c ok = s.frameJudged c t .accepted := by
  have outcome := accepted
  unfold State.frameOutcome at outcome
  rw [State.endFrame, take]
  dsimp only
  rw [outcome]
  rfl

theorem State.endFrame_refused (take : (s.cch.get c).take = some t) (refused : s.frameOutcome c t ok ≠ .accepted) :
    s.endFrame c ok = (s.frameJudged c t (s.frameOutcome c t ok)).issueResult c t.desc
      (s.frameResult c t (s.frameOutcome c t ok)) := by
  rw [State.endFrame, take]
  exact if_neg refused

/-- A frame being taken ends at a start mark, or at its trailer after the full body (R131). -/
theorem exec_frameEnd {e : Instr} (taking : (s.cch.get c).intake = .taking)
    (ends : (e = .startMark c ∧ ok = false) ∨ ((s.cch.get c).received = (s.cch.get c).bodyLength
      ∧ ∃ k, e = .frameTrailer c k ∧ ok = (~~~ (s.cch.get c).crc == k))) :
    exec e s = .next (s.endFrame c ok) := by
  rcases ends with ⟨rfl, rfl⟩ | ⟨full, k, rfl, rfl⟩
  · show execStartMark c s = _
    simp only [execStartMark, State.startMark, taking]
  · show execFrameTrailer c k s = _
    simp only [execFrameTrailer, taking, if_pos full, crcFinal]

end FrameEnd

/-- Settles O54: the outcome by `frameOutcome`, and the result issued unless it awaits a number. -/
theorem framesAreJudgedByTheTable : Obligations.FramesAreJudgedByTheTable := by
  unfold Obligations.FramesAreJudgedByTheTable
  intro c t n s e ok x taking take notice ends
  have kind : t.noticeOf.kind = n.kind := by rw [TakeRec.noticeOf_some notice]
  have table (k : NoticeKind) (hk : n.kind = k) : s.frameOutcome c t ok
      = judge k (t.desc.cap < x.bodyLength) ok (x.gatePasses s.profile) := by
    rw [State.frameOutcome, kind, hk]
  refine ⟨s.frameOutcome c t ok, x.ageSlots, s.frameResult c t (s.frameOutcome c t ok), s.endFrame c ok,
    exec_frameEnd taking ends, table .cut, table .lightFault, fun exposed => ?_, x.ageSlots_aged,
    Cch.resultOf_spec notice _ _ _, ?_, fun accepted => ?_, fun refused => ?_⟩
  · rw [table .exposed exposed, ← Cch.gatePasses_iff]
    exact judge_exposed ..
  · rw [← TakeRec.judgement_some notice]
    by_cases accepted : s.frameOutcome c t ok = .accepted
    · rw [State.endFrame_accepted take accepted, accepted]
      rfl
    · rw [State.endFrame_refused take accepted]
      rfl
  · rw [State.endFrame_accepted take accepted]
    rfl
  · rw [State.endFrame_refused take refused]
    rfl

end Sys2Proof.Machine
end

section
/-! SUPPORT. Arm requests, end-of-exposure notices and restarts (R122, R125 to R128, R138; O52): an equation for each
case of a channel's state. -/

namespace Sys2Proof.Machine

section Requests
variable {s : State} {c : Chan}

section Arm
variable {q : ArmReq} {rest : List ArmReq} (arms : (s.cch.get c).arms = q :: rest)
include arms

theorem execArmRequest_idle (idle : (s.cch.get c).state = .idle) :
    execArmRequest c s = .next ((s.setCch c { s.cch.get c with arms := rest }).arm c q) := by
  simp only [execArmRequest, arms, State.setCch_cch, Pair.get_set, if_pos idle]

theorem execArmRequest_busy (busy : (s.cch.get c).state ≠ .idle) :
    execArmRequest c s = .next ((s.setCch c { s.cch.get c with arms := rest }).toOcc (.armed c false)) := by
  simp only [execArmRequest, arms, State.setCch_cch, Pair.get_set, if_neg busy]

end Arm

/-- The take armed, and the channel's answer (R126). -/
theorem State.arm_eq (s : State) (c : Chan) (q : ArmReq) : s.arm c q = { s with
    cch := s.cch.set c { s.cch.get c with
      state := .armed, takeId := (s.cch.get c).takeId + 1, syncPending := false
      take := some (TakeRec.mk q.desc q.leaf q.side q.panel (planAt s.vau.plan q.leaf).tag s.vau.key none none)
      sent := (s.cch.get c).sent
        ++ [.arm ((s.cch.get c).takeId + 1) q.time q.leaf q.side q.panel (s.cch.get c).syncPending] }
    occ := { s.occ with inbox := s.occ.inbox ++ [.armed c true] } } := rfl

section Notices
variable {n : Notice} {rest : List Notice} (notices : (s.cch.get c).notices = n :: rest)
include notices

theorem execEndOfExposureNotice_armed (armed : (s.cch.get c).state = .armed) :
    execEndOfExposureNotice c s = .next (s.setCch c { s.cch.get c with
      notices := rest, take := (s.cch.get c).take.map (fun t => { t with notice := some n })
      state := .exposed, frameWatch := some s.profile.frameClass }) := by
  simp only [execEndOfExposureNotice, notices, if_pos armed]

theorem execEndOfExposureNotice_ignored (other : (s.cch.get c).state ≠ .armed) :
    execEndOfExposureNotice c s = .next (s.setCch c { s.cch.get c with notices := rest }) := by
  simp only [execEndOfExposureNotice, notices, if_neg other]

end Notices

end Requests

/-- Settles O52: an arm request by whether the channel is IDLE, a notice by whether it is ARMED, a restart by
whether it is FAULTED. -/
theorem armsAndNoticesAreTaken : Obligations.ArmsAndNoticesAreTaken := by
  unfold Obligations.ArmsAndNoticesAreTaken
  refine ⟨fun c q rest s arms => ⟨fun idle => ?_, execArmRequest_busy arms⟩,
    fun c n rest s notices => ⟨fun t armed take => ?_, execEndOfExposureNotice_ignored notices⟩,
    fun x => ⟨fun faulted => if_pos faulted, fun other => if_neg other⟩⟩
  · show execArmRequest c s = _
    rw [execArmRequest_idle arms idle, State.arm_eq]
    simp only [State.setCch, Pair.get_set, Pair.set_set]
  · show execEndOfExposureNotice c s = _
    rw [execEndOfExposureNotice_armed notices armed, take]
    rfl

end Sys2Proof.Machine
end

section
/-! SUPPORT. Frame intake (R123, R129, R130, R132; O53): a header decided, a body byte taken or counted off, and the
answer to a discarded frame. -/

namespace Sys2Proof.Machine

section Intake
variable {s : State} {c : Chan}

/-! ### Headers (R123, R129) -/

/-- A second start mark changes nothing, so a header or a message may be given its own (R123; log 23). -/
theorem State.startMark_startMark (s : State) (c : Chan) : (s.startMark c).startMark c = s.startMark c :=
  State.startMark_between _ c (s.startMark_intake c)

theorem execFrameHeader_between (between : (s.cch.get c).intake = .between) (id : BitVec 16) (len : Word32) :
    execFrameHeader c id len s = .next (s.setCch c ((s.cch.get c).header id len.toNat)) := by
  rw [execFrameHeader, State.startMark_between s c between]

theorem execFrameHeader_startMark (id : BitVec 16) (len : Word32) :
    execFrameHeader c id len s = execFrameHeader c id len (s.startMark c) := by
  simp only [execFrameHeader, State.startMark_startMark]

section Header
variable {x : Cch} {id : BitVec 16} (length : Nat)

theorem Cch.header_taken (exposed : x.state = .exposed) (own : id = x.takeId) : x.header id length
    = { x with
        state := .receiving, intake := .taking
        take := x.take.map (fun t => { t with bodyLen := some length })
        received := 0, written := 0, crc := 0xFFFFFFFF } := if_pos ⟨exposed, own⟩

theorem Cch.header_repeated (other : x.state ≠ .exposed ∨ id ≠ x.takeId) (last : x.lastDone = some id) :
    x.header id length = { x with intake := .discarding .repeatSeen id length 0 } := by
  rw [Cch.header, if_neg (not_and_or.2 other), if_pos last]

theorem Cch.header_spurned (other : x.state ≠ .exposed ∨ id ≠ x.takeId) (unknown : x.lastDone ≠ some id) :
    x.header id length = { x with intake := .discarding .spurned id length 0 } := by
  rw [Cch.header, if_neg (not_and_or.2 other), if_neg unknown]

end Header

/-! ### Body bytes (R130, R132) -/

theorem Cch.bodyLength_some {x : Cch} {t : TakeRec} {n : Nat} (take : x.take = some t) (len : t.bodyLen = some n) :
    x.bodyLength = n := by
  rw [Cch.bodyLength, take, Option.bind_some, len, Option.getD_some]

theorem execBodyByte_between (between : (s.cch.get c).intake = .between) (b : Byte) :
    execBodyByte c b s = .next s := by
  simp only [execBodyByte, between]

theorem execBodyByte_taking (taking : (s.cch.get c).intake = .taking) (b : Byte) : execBodyByte c b s
    = .next (if (s.cch.get c).received < (s.cch.get c).bodyLength then s.takeByte c b else s) := by
  simp only [execBodyByte, taking]

/-- A byte of the body goes into the CRC, and into the buffer while there is room (R130). -/
theorem State.takeByte_of_take {t : TakeRec} (take : (s.cch.get c).take = some t) (b : Byte) :
    let x' := { s.cch.get c with
      crc := crcByte (s.cch.get c).crc b, received := (s.cch.get c).received + 1 }
    s.takeByte c b = if (s.cch.get c).received < t.desc.cap
      then (s.setCch c { x' with written := (s.cch.get c).written + 1 }).issue (.body c)
        (t.desc.addr + (s.cch.get c).received) [b]
      else s.setCch c x' := by
  simp only [State.takeByte, take]

section Discarding
variable {kind : AnswerKind} {id : BitVec 16} {len n : Nat}
  (discarding : (s.cch.get c).intake = .discarding kind id len n)
include discarding

theorem execBodyByte_discarding (b : Byte) : execBodyByte c b s
    = .next (if n < len then s.setCch c { s.cch.get c with intake := .discarding kind id len (n + 1) } else s) := by
  simp only [execBodyByte, discarding]

/-! ### Start marks and trailers (R123, R131, R132) -/

/-- A discarded frame is answered at a start mark (R132). -/
theorem execStartMark_discarding : execStartMark c s
    = .next (s.setCch c ({ s.cch.get c with intake := .between }.send (.answer kind id))) := by
  simp only [execStartMark, State.startMark, discarding]

/-- A discarded frame is answered at its trailer, once its body is counted off (R132). -/
theorem execFrameTrailer_discarding (k : Word32) : execFrameTrailer c k s
    = .next (if n = len then s.setCch c ({ s.cch.get c with intake := .between }.send (.answer kind id)) else s) := by
  simp only [execFrameTrailer, discarding]

end Discarding

theorem execFrameTrailer_early (taking : (s.cch.get c).intake = .taking)
    (early : (s.cch.get c).received ≠ (s.cch.get c).bodyLength) (k : Word32) : execFrameTrailer c k s = .next s := by
  simp only [execFrameTrailer, taking, if_neg early]

theorem execFrameTrailer_between (between : (s.cch.get c).intake = .between) (k : Word32) :
    execFrameTrailer c k s = .next s := by
  simp only [execFrameTrailer, between]

theorem execStartMark_between (between : (s.cch.get c).intake = .between) : execStartMark c s = .next s :=
  congrArg _ (s.startMark_between c between)

end Intake

/-- Settles O53: each command by the intake state it finds. -/
theorem framesAreTakenOrDiscarded : Obligations.FramesAreTakenOrDiscarded := by
  unfold Obligations.FramesAreTakenOrDiscarded
  refine ⟨fun c id len s => ⟨fun between => ?_, ?_⟩,
    fun c b s => ⟨fun t taking take short => ⟨fun room => ?_, fun beyond => ?_⟩,
      fun kind id len n discarding short => ?_, fun between => execBodyByte_between between b,
      fun taking whole => ?_, fun kind id len n discarding whole => ?_⟩,
    fun c k s => ⟨fun kind id len n discarding => ⟨execStartMark_discarding discarding, fun counted => ?_,
        fun early => ?_⟩,
      fun taking early => execFrameTrailer_early taking early k,
      fun between => ⟨execStartMark_between between, execFrameTrailer_between between k⟩⟩,
    fun c b s => rfl, fun x t n => Cch.bodyLength_some⟩
  · have header : exec (.frameHeader c id len) s = _ := execFrameHeader_between between id len
    exact ⟨fun exposed own => header.trans (by rw [Cch.header_taken _ exposed own]; rfl),
      fun other => ⟨fun last => header.trans (by rw [Cch.header_repeated _ other last]; rfl),
        fun unknown => header.trans (by rw [Cch.header_spurned _ other unknown]; rfl)⟩⟩
  · rintro _ ⟨rfl⟩
    exact ⟨s.startMark_intake c, execFrameHeader_startMark id len⟩
  · refine (execBodyByte_taking taking b).trans ?_
    rw [if_pos short, State.takeByte_of_take take, if_pos room]
    rfl
  · refine (execBodyByte_taking taking b).trans ?_
    rw [if_pos short, State.takeByte_of_take take, if_neg (Nat.not_lt.2 beyond)]
    rfl
  · exact (execBodyByte_discarding discarding b).trans (congrArg _ (if_pos short))
  · exact (execBodyByte_taking taking b).trans (congrArg _ (if_neg (Nat.not_lt.2 whole)))
  · exact (execBodyByte_discarding discarding b).trans (congrArg _ (if_neg (Nat.not_lt.2 whole)))
  · exact (execFrameTrailer_discarding discarding k).trans (congrArg _ (if_pos counted))
  · exact (execFrameTrailer_discarding discarding k).trans (congrArg _ (if_neg early))

end Sys2Proof.Machine
end

section
/-! SUPPORT. The end of a take (R63, R130, R135 to R137; O55): its result written, or CUT or LOST at its watch. -/

namespace Sys2Proof.Machine

section TakeEnd
variable {s : State} {c : Chan} {t : TakeRec}

/-! ### The result written (R135, R136) -/

/-- The channel once the result of its take is written. -/
def Cch.resultWritten (x : Cch) (j : ResultJob) : Cch :=
  { x with
    take := none, result := none, state := .idle
    sent := if j.sendAnswer then x.sent ++ [.answer .taken x.takeId] else x.sent }

section Result
variable {j : ResultJob} (result : (s.cch.get c).result = some j) (take : (s.cch.get c).take = some t)
include result take

theorem execResultWriteComplete_written (numbered : j.awaitsNumber = false)
    (flight : s.hasInFlight (.result c) = true) :
    execResultWriteComplete c s = .next (State.pollWait
      (((s.land (fun w => w.writer == .body c || w.writer == .result c)).toFbk c
        (.filled t.desc.bank t.desc.index)).setCch c ((s.cch.get c).resultWritten j))) := by
  simp only [execResultWriteComplete, result, take, numbered, flight, Bool.not_true, Bool.or_false,
    Bool.false_eq_true, if_false, Cch.resultWritten]
  cases j.sendAnswer <;> rfl

theorem execResultWriteComplete_early (early : j.awaitsNumber = true ∨ s.hasInFlight (.result c) = false) :
    execResultWriteComplete c s = .next s := by
  have waits : (j.awaitsNumber || !s.hasInFlight (.result c)) = true := by
    rwa [Bool.or_eq_true, Bool.not_eq_true']
  simp only [execResultWriteComplete, result, take, if_pos waits]

end Result

/-! ### The frame watch (R136, R137) -/

section Expiry
variable {k : Nat} (take : (s.cch.get c).take = some t) (watch : (s.cch.get c).frameWatch = some k) (class0 : k ≠ 0)
include take watch class0

theorem execFrameWatchExpiry_cut (cut : t.noticeOf.kind = .cut) :
    execFrameWatchExpiry c s = .next (s.cutTake c t).pollWait := by
  simp only [execFrameWatchExpiry, take, watch, Watch.mayExpire_some class0, cut, if_true]

theorem execFrameWatchExpiry_lost (other : t.noticeOf.kind ≠ .cut) :
    execFrameWatchExpiry c s = .next (s.loseTake c t).pollWait := by
  simp only [execFrameWatchExpiry, take, watch, Watch.mayExpire_some class0, if_true, if_neg other]

end Expiry

theorem execFrameWatchExpiry_stopped (stopped : (s.cch.get c).take = none ∨ (s.cch.get c).frameWatch = none
    ∨ (s.cch.get c).frameWatch = some 0) : execFrameWatchExpiry c s = .next s := by
  unfold execFrameWatchExpiry
  dsimp only
  split
  · next t take =>
    have still : (s.cch.get c).frameWatch.mayExpire = false := by
      rcases stopped with absent | unset | class0
      · rw [take] at absent
        nomatch absent
      · rw [unset]
        rfl
      · rw [class0]
        rfl
    rw [still]
    rfl
  · rfl

/-- A take lost: reported, and its descriptor returned, in the channel state given (R136, R137; logs 5, 24). -/
def State.takeLost (s : State) (c : Chan) (t : TakeRec) (n : Notice) (st : ChanState) (faulted : Bool) : State :=
  State.releaseDesc { s with
    cch := s.cch.set c { (s.cch.get c).ageSlots with
      intake := (s.cch.get c).abandonFrame, frameWatch := none, take := none, lost := (s.cch.get c).lost + 1
      state := st }
    vau := { s.vau with judgements := s.vau.judgements
      ++ [⟨c, t.leaf, t.side, t.panel, .lost, 0, n.degraded, n.contact, faulted, false⟩] }
    host := (s.landBody c).host } c t.desc.bank t.desc.index

section Lost
variable {n : Notice} (notice : t.notice = some n)
include notice

theorem State.loseTake_first (first : (s.cch.get c).lost = 0) : s.loseTake c t = s.takeLost c t n .idle false := by
  simp only [State.loseTake, first, Nat.zero_add, Nat.reduceLeDiff, decide_false, Bool.false_eq_true, if_false,
    TakeRec.judgement_some notice, State.takeLost]
  rfl

theorem State.loseTake_again (again : 1 ≤ (s.cch.get c).lost) :
    s.loseTake c t = (s.takeLost c t n .faulted true).toOcc (.faulted c) := by
  have second : decide (2 ≤ (s.cch.get c).lost + 1) = true := decide_eq_true (Nat.succ_le_succ again)
  simp only [State.loseTake, second, if_true, TakeRec.judgement_some notice, State.takeLost]
  rfl

end Lost

/-! ### OCC's wait for the channel (R63) -/

theorem State.pollWait_of_other (other : ∀ x, s.occ.work ≠ .channelWait x) : s.pollWait = s := by
  unfold State.pollWait
  split
  · next x wait => exact absurd wait (other x)
  · rfl

theorem State.pollWait_of_wait {x : Exposure} (wait : s.occ.work = .channelWait x) :
    s.pollWait = if s.mustWait x then s else s.runTodo (x :: s.occ.todo) := by
  simp only [State.pollWait, wait]

end TakeEnd

/-- Settles O55: a result written or not, a watch that runs out on a CUT or another take, and OCC's wait. -/
theorem takesEndInResultsOrLost : Obligations.TakesEndInResultsOrLost := by
  unfold Obligations.TakesEndInResultsOrLost
  refine ⟨fun c j t s => ?_, fun c t n k s => ?_, fun c s => execFrameWatchExpiry_stopped,
    fun s => ⟨State.pollWait_of_other, fun x wait => ⟨fun must => ?_, fun free => ?_⟩⟩⟩
  · intro x result take
    exact ⟨fun numbered flight => ⟨_, execResultWriteComplete_written result take numbered flight, rfl,
      s.land_completed _⟩, execResultWriteComplete_early result take⟩
  · intro x take notice watch class0 judged
    have kind : t.noticeOf.kind = n.kind := by rw [TakeRec.noticeOf_some notice]
    refine ⟨x.abandonFrame, x.ageSlots, Cch.abandonFrame_taking, Cch.abandonFrame_other, x.ageSlots_aged,
      fun cut => ⟨_, Cch.resultOf_spec notice .cut 0 0, ?_⟩,
      fun other => ⟨(s.landBody c).host, s.land_completed _, fun first => ?_, fun again => ?_⟩⟩
    · refine (execFrameWatchExpiry_cut take watch class0 (kind.trans cut)).trans ?_
      rw [State.cutTake, TakeRec.judgement_some notice]
      rfl
    · refine (execFrameWatchExpiry_lost take watch class0 (kind.trans_ne other)).trans ?_
      rw [State.loseTake_first notice first]
      rfl
    · refine (execFrameWatchExpiry_lost take watch class0 (kind.trans_ne other)).trans ?_
      rw [State.loseTake_again notice again]
      rfl
  · rw [State.pollWait_of_wait wait, if_pos must]
  · rw [State.pollWait_of_wait wait, free]
    rfl

end Sys2Proof.Machine
end

section
/-! SUPPORT. The side-band (R123, R152 to R154, R159; O58): a message summed, matched and stored, the READ SIDEBAND
orders, and the bytes of a report. -/

namespace Sys2Proof.Machine

/-! ### The check byte (R154) -/

theorem toNat_foldl_add (p : List Byte) (b : Byte) :
    (p.foldl (· + ·) b).toNat = (b.toNat + (p.map BitVec.toNat).sum) % 256 := by
  induction p generalizing b with
  | nil => simpa using (Nat.mod_eq_of_lt b.isLt).symm
  | cons a p ih =>
    rw [List.foldl_cons, ih, BitVec.toNat_add, List.map_cons, List.sum_cons]
    omega

theorem sidebandCheck_eq (type : Byte) (p : List Byte) (k : Byte) : sidebandCheck type p k
    = decide ((type.toNat + p.length + (p.map BitVec.toNat).sum + k.toNat) % 256 = 0) := by
  rw [sidebandCheck, Bool.beq_eq_decide_eq, decide_eq_decide, ← BitVec.toNat_inj, BitVec.toNat_add, toNat_foldl_add,
    BitVec.toNat_add, BitVec.toNat_ofNat]
  show _ = 0 ↔ _
  omega

/-! ### The slot of a message (R154) -/

section Slots
variable {x : Cch} {type : Byte}

theorem Cch.matching_none (unheld : type = 0 ∨ ∀ i, (x.slot i).type ≠ type.toNat) : x.matching type = none := by
  unfold Cch.matching
  split
  · rfl
  · next nonzero =>
    exact List.find?_eq_none.2 fun i _ => by simpa using unheld.resolve_left nonzero i

/-- A message goes to the first slot that holds its type. -/
theorem Cch.matching_first {i : Fin 4} (nonzero : type ≠ 0) (held : (x.slot i).type = type.toNat)
    (first : ∀ j, j < i → (x.slot j).type ≠ type.toNat) : x.matching type = some i := by
  rw [Cch.matching, if_neg nonzero]
  refine List.find?_eq_some_iff_getElem.2 ⟨beq_iff_eq.2 held, i.val, by simp, by simp, fun j earlier => ?_⟩
  simpa using first ⟨j, by omega⟩ earlier

theorem SbSlot.store_taken (b : SbSlot) (p : List Byte) {passes : Bool}
    (taken : passes = true ∨ b.storeOnError = true) : b.store p passes
      = { b with
          valid := true, checkError := !passes, age := 0, received := true
          length := p.length, payload := p ++ List.replicate (24 - p.length) 0 } :=
  if_pos (by rwa [Bool.or_eq_true])

theorem SbSlot.store_dropped (b : SbSlot) (p : List Byte) (keep : b.storeOnError = false) : b.store p false = b := by
  rw [SbSlot.store, keep]
  rfl

/-- The channel after a message for slot i: no other slot changes. -/
theorem Cch.takeSideband_spec {i : Fin 4} (matched : x.matching type = some i) (p : List Byte) (k : Byte) :
    let y := x.takeSideband type p k
    y = { x with slots := y.slots } ∧ (∀ j, j ≠ i → y.slot j = x.slot j)
      ∧ y.slot i = (x.slot i).store p (sidebandCheck type p k) := by
  simp only [Cch.takeSideband, matched, Cch.slot_mapSlots]
  exact ⟨rfl, fun j other => if_neg other, if_true ..⟩

end Slots

/-! ### Messages (R123, R153, R154) -/

section Messages
variable {s : State} {c : Chan}

theorem execSideband_startMark (type : Byte) (p : List Byte) (k : Byte) :
    execSideband c type p k s = execSideband c type p k (s.startMark c) := by
  simp only [execSideband, State.startMark_startMark]

section Between
variable {type : Byte} {p : List Byte} (between : (s.cch.get c).intake = .between) (k : Byte)
include between

theorem execSideband_long (long : 24 < p.length) : execSideband c type p k s = .next s := by
  rw [execSideband, State.startMark_between s c between]
  exact congrArg _ (if_neg (Nat.not_le.2 long))

theorem execSideband_fits (fits : p.length ≤ 24) :
    execSideband c type p k s = .next (s.setCch c ((s.cch.get c).takeSideband type p k)) := by
  rw [execSideband, State.startMark_between s c between]
  exact congrArg _ (if_pos fits)

/-- A message that no slot holds the type of changes nothing. -/
theorem execSideband_unmatched (fits : p.length ≤ 24) (unmatched : (s.cch.get c).matching type = none) :
    execSideband c type p k s = .next s := by
  rw [execSideband_fits between k fits]
  simp only [Cch.takeSideband, unmatched, State.setCch, Pair.set_get]

end Between

/-! ### READ SIDEBAND (R159) -/

theorem Sideband.start_eq (l : List (Fin 16)) :
    Sideband.start l = ⟨l.head?.map (fun i => ⟨i, ⟨true, true⟩, ⟨true, true⟩⟩), l.tail⟩ := by
  cases l <;> rfl

section Orders
variable {s' : State} {d : Dispatched} (order : s.nextOrder .cch = some (d, s'))
include order

theorem State.nextOrder_sideband : s'.sideband = s.sideband := by
  rw [State.nextOrder_eq order]

theorem execReadSideband_free (free : s.sideband.job = none) :
    execReadSideband s = .next { s' with sideband := .start [d.slot] } := by
  simp only [execReadSideband, order, State.nextOrder_sideband order, free]

theorem execReadSideband_behind (busy : s.sideband.job ≠ none) : execReadSideband s = .next { s' with
    sideband := { s.sideband with waiting := s.sideband.waiting ++ [d.slot] } } := by
  obtain ⟨j, job⟩ := Option.ne_none_iff_exists'.1 busy
  simp only [execReadSideband, order, State.nextOrder_sideband order, job]

end Orders

section Job
variable {j : SidebandJob} (job : s.sideband.job = some j)
include job

theorem execSidebandCopy_due (due : j.toCopy.has c = true) : execSidebandCopy c s = .next (State.issue
    { s with sideband := { s.sideband with job := some { j with toCopy := j.toCopy.erase c } } } (.report c)
    (s.area + reportOffset c) (reportBytes (s.cch.get c).slots)) := by
  simp only [execSidebandCopy, job, due, if_true]

theorem execSidebandCopy_done (done : j.toCopy.has c = false) : execSidebandCopy c s = .next s := by
  simp only [execSidebandCopy, job, done, Bool.false_eq_true, if_false]

/-- A report written: the second answers the order and starts the next (R159). -/
theorem execSidebandReportWritten_due (flight : s.hasInFlight (.report c) = true) (due : j.toWrite.has c = true) :
    let u := s.land (fun w => w.writer == .report c)
    execSidebandReportWritten c s = .next (if (j.toWrite.erase c).isEmpty
      then State.answer { u with sideband := .start s.sideband.waiting } j.slot .done
      else { u with sideband := { s.sideband with job := some { j with toWrite := j.toWrite.erase c } } }) := by
  simp only [execSidebandReportWritten, job, flight, due, Bool.and_self, if_true]
  rfl

theorem execSidebandReportWritten_early (early : s.hasInFlight (.report c) = false ∨ j.toWrite.has c = false) :
    execSidebandReportWritten c s = .next s := by
  have waits : ¬(s.hasInFlight (.report c) && j.toWrite.has c) = true := by
    rw [Bool.not_eq_true, Bool.and_eq_false_iff]
    exact early
  simp only [execSidebandReportWritten, job, if_neg waits]

end Job

end Messages

/-! ### The bytes of a report (section 11.6) -/

/-- A byte of blocks of one length, one after the other. -/
theorem getElem?_flatten_blocks {α : Type} {n : Nat} {l : List (List α)} (blocks : ∀ b ∈ l, b.length = n) (i : Nat)
    {k : Nat} (hk : k < n) : l.flatten[n * i + k]? = l[i]?.bind (·[k]?) := by
  induction l generalizing i with
  | nil => simp
  | cons b l ih =>
    have first : b.length = n := blocks b List.mem_cons_self
    have rest := ih fun x hx => blocks x (List.mem_cons_of_mem b hx)
    rw [List.flatten_cons]
    cases i with
    | zero => simp [List.getElem?_append_left (first ▸ hk)]
    | succ i =>
      rw [List.getElem?_append_right (by rw [first, Nat.mul_succ]; omega), List.getElem?_cons_succ, ← rest i]
      congr 1
      rw [first, Nat.mul_succ]
      omega

/-- The report of a slot before its payload is laid over it. -/
def SbSlot.header (b : SbSlot) : List Byte :=
  layout 32 [⟨0, 1, b.type⟩, ⟨1, 1, bit b.storeOnError + 2 * bit b.valid + 4 * bit b.checkError + 8 * bit b.received⟩,
    ⟨2, 1, b.age⟩, ⟨3, 1, b.length⟩]

theorem SbSlot.header_laidOut (b : SbSlot) : LaidOut 0 32 b.header
    [(0, 1, b.type), (1, 1, bit b.storeOnError + 2 * bit b.valid + 4 * bit b.checkError + 8 * bit b.received),
      (2, 1, b.age), (3, 1, b.length)] :=
  layout_laidOut 32 _ ⟨by simp, by simp⟩

/-- A field of one byte. -/
theorem LaidOut.byte {n o v : Nat} {b : List Byte} {fields : List (Nat × Nat × Nat)} (h : LaidOut 0 n b fields)
    (field : (o, 1, v) ∈ fields) : b[o]? = some (BitVec.ofNat 8 v) := by
  have value := h.2.1 _ field 0 Nat.one_pos
  rwa [Nat.sub_zero, Nat.add_zero, Nat.pow_zero, Nat.div_one] at value

section SlotReport
variable {b : SbSlot} (full : b.payload.length = 24)
include full

theorem slotReport_eq : slotReport b = overlay b.header 4 b.payload :=
  congrArg (overlay b.header 4) (List.take_of_length_le (Nat.le_of_eq full))

theorem slotReport_length : (slotReport b).length = 32 := by
  have header : b.header.length = 32 := b.header_laidOut.1
  rw [slotReport_eq full, overlay_length _ _ _ (by omega), header]

/-- The payload stands at bytes 4 to 27 of the report of a slot, and the header's bytes around it. -/
theorem slotReport_get (k : Nat) :
    (slotReport b)[k]? = if 4 ≤ k ∧ k < 28 then b.payload[k - 4]? else b.header[k]? := by
  have header : b.header.length = 32 := b.header_laidOut.1
  rw [slotReport_eq full, overlay_get _ _ _ _ (by omega), full]

end SlotReport

section Report
variable {v : Vector SbSlot 4} (full : ∀ i : Fin 4, v[i].payload.length = 24)
include full

theorem slotReports_length : ∀ b ∈ v.toList.map slotReport, b.length = 32 := by
  intro b listed
  obtain ⟨x, hx, rfl⟩ := List.mem_map.1 listed
  obtain ⟨i, hi, rfl⟩ := Vector.getElem_of_mem (Vector.mem_toList_iff.1 hx)
  exact slotReport_length (full ⟨i, hi⟩)

theorem slotReports_flatten_length : (v.toList.map slotReport).flatten.length = 128 := by
  rw [List.length_flatten, List.sum_eq_card_nsmul _ 32 (by simpa using slotReports_length full)]
  simp

theorem reportBytes_length : (reportBytes v).length = 256 := by
  rw [reportBytes, List.length_append, slotReports_flatten_length full, List.length_replicate]

theorem reportBytes_slot (i : Fin 4) {k : Nat} (hk : k < 32) :
    (reportBytes v)[32 * i.val + k]? = (slotReport v[i])[k]? := by
  rw [reportBytes, List.getElem?_append_left (by rw [slotReports_flatten_length full]; omega),
    getElem?_flatten_blocks (slotReports_length full) _ hk]
  simp

theorem reportBytes_tail {k : Nat} (low : 128 ≤ k) (high : k < 256) : (reportBytes v)[k]? = some 0 := by
  rw [reportBytes, List.getElem?_append_right (by rwa [slotReports_flatten_length full]),
    slotReports_flatten_length full, List.getElem?_replicate, if_pos (by omega)]

/-- A slot of a report: type, flags, age, length, payload, and zeros (section 11.6). -/
theorem reportBytes_fields (i : Fin 4) :
    (reportBytes v)[32 * i.val]? = some (BitVec.ofNat 8 v[i].type)
    ∧ (reportBytes v)[32 * i.val + 1]? = some (BitVec.ofNat 8
        ((if v[i].storeOnError then 1 else 0) + (if v[i].valid then 2 else 0)
          + (if v[i].checkError then 4 else 0) + (if v[i].received then 8 else 0)))
    ∧ (reportBytes v)[32 * i.val + 2]? = some (BitVec.ofNat 8 v[i].age)
    ∧ (reportBytes v)[32 * i.val + 3]? = some (BitVec.ofNat 8 v[i].length)
    ∧ (∀ k, k < 24 → (reportBytes v)[32 * i.val + 4 + k]? = v[i].payload[k]?)
    ∧ (∀ k, 28 ≤ k → k < 32 → (reportBytes v)[32 * i.val + k]? = some 0) := by
  have header := v[i].header_laidOut
  have slot (k : Nat) (hk : k < 32) : (reportBytes v)[32 * i.val + k]?
      = if 4 ≤ k ∧ k < 28 then v[i].payload[k - 4]? else v[i].header[k]? := by
    rw [reportBytes_slot full i hk, slotReport_get (full i)]
  refine ⟨(slot 0 (by decide)).trans (header.byte (by simp)), ?_, (slot 2 (by decide)).trans (header.byte (by simp)),
    (slot 3 (by decide)).trans (header.byte (by simp)), fun k hk => ?_, fun k low high => ?_⟩
  · refine (slot 1 (by decide)).trans ((header.byte (List.mem_cons_of_mem _ List.mem_cons_self)).trans ?_)
    simp only [bit, mul_ite, mul_one, mul_zero]
  · rw [Nat.add_assoc, slot (4 + k) (by omega), if_pos (by omega), Nat.add_sub_cancel_left]
  · rw [slot k high, if_neg (by omega)]
    exact header.2.2 k high (by simp; omega)

end Report

/-- Settles O58: the messages by the slot they match, the orders one at a time, and the report byte by byte. -/
theorem sidebandMessagesFillTheirSlots : Obligations.SidebandMessagesFillTheirSlots := by
  unfold Obligations.SidebandMessagesFillTheirSlots
  refine ⟨fun c type p k s => ?_, fun c type l s => ?_, fun s s' d order => ?_, fun c j s job => ?_,
    fun v full => ⟨reportBytes_length full, reportBytes_fields full, fun k => reportBytes_tail full⟩⟩
  · intro x sum
    have check : sidebandCheck type p k = decide (sum % 256 = 0) := sidebandCheck_eq type p k
    refine ⟨⟨_, rfl, s.startMark_intake c, execSideband_startMark type p k⟩,
      fun between long => execSideband_long between k long,
      fun between fits => ⟨fun unheld => execSideband_unmatched between k fits (Cch.matching_none unheld),
        fun i nonzero held first => ?_⟩⟩
    obtain ⟨frame, others, stored⟩ := Cch.takeSideband_spec (Cch.matching_first nonzero held first) p k
    rw [check] at stored
    refine ⟨_, frame, execSideband_fits between k fits, others, fun taken => stored.trans ?_,
      fun bad drop => stored.trans ?_⟩
    · rw [SbSlot.store_taken _ p (by simpa using taken), decide_not]
    · rw [decide_eq_false bad]
      exact SbSlot.store_dropped _ p drop
  · exact ⟨⟨_, rfl, rfl, s.startMark_intake c⟩, execStartMark_between, fun kind id n m => execStartMark_discarding⟩
  · exact ⟨execReadSideband_free order, execReadSideband_behind order⟩
  · intro offset
    have place : reportOffset c = offset := by cases c <;> rfl
    refine ⟨fun due => ?_, execSidebandCopy_done job, fun flight due => ?_, execSidebandReportWritten_early job⟩
    · rw [← place]
      exact execSidebandCopy_due job due
    · have written := execSidebandReportWritten_due job flight due
      refine ⟨_, s.land_completed _, fun more => written.trans ?_, fun last => written.trans ?_⟩
      · rw [more]
        rfl
      · rw [last, Sideband.start_eq]
        rfl

end Sys2Proof.Machine
end

section
/-! SUPPORT. The frame banks (chapter 8; O56, O57): GRANT, the search for a descriptor and its commands, the bytes
written into a descriptor, and the return, filling and hand-over of descriptors. -/

namespace Sys2Proof.Machine

/-! ### The descriptors of a bank (R143) -/

theorem Bank.has_iff {b : Bank} {d : DescState} : b.has d = true ↔ ∃ i, b.desc i = d := by
  simp [Bank.has]

theorem Bank.full_iff {b : Bank} : b.full = true ↔ ∀ i, b.desc i = .filled := by
  simp [Bank.full]

theorem Fbk.bank_setDesc (f : Fbk) (b : BankId) (i : Fin 4) (d : DescState) :
    (f.setDesc b i d).bank b = (f.bank b).setDesc i d := by
  cases b <;> rfl

/-! ### GRANT (R144) -/

theorem Bank.grant_granted {x : Bank} (granted : x.granted = true) : x.grant = x := if_pos granted

theorem Bank.grant_host {x : Bank} (host : x.granted = false) :
    x.grant.granted = true ∧ ∀ i, x.grant.desc i = .free := by
  rw [Bank.grant, if_neg (by simp [host])]
  exact ⟨rfl, fun i => Vector.getElem_replicate i.isLt⟩

/-- The banks of a channel after a GRANT write that names them by two bits. -/
def Fbk.grantBanks (f : Fbk) (a b : Bool) : Fbk :=
  { f with bankA := if a then f.bankA.grant else f.bankA, bankB := if b then f.bankB.grant else f.bankB }

theorem Fbk.grantBanks_bank (f : Fbk) (a b : Bool) (k : BankId) :
    (f.grantBanks a b).bank k = if (if k = .bankA then a else b) then (f.bank k).grant else f.bank k := by
  cases k <;> rfl

/-- A channel's GRANT report is due: a bank that a bit names was the host's. -/
def Fbk.grantDue (f : Fbk) (a b : Bool) : Bool := (a && !f.bankA.granted) || (b && !f.bankB.granted)

theorem execGrant_eq (v : Word32) (s : State) : execGrant v s = .next { s with
    fbk := ⟨s.fbk.left.grantBanks (v.getLsbD 0) (v.getLsbD 1), s.fbk.right.grantBanks (v.getLsbD 2) (v.getLsbD 3)⟩
    occ := { s.occ with inbox := s.occ.inbox
      ++ (if s.fbk.left.grantDue (v.getLsbD 0) (v.getLsbD 1) then [OccMsg.granted .left] else [])
      ++ (if s.fbk.right.grantDue (v.getLsbD 2) (v.getLsbD 3) then [OccMsg.granted .right] else []) } } := by
  rw [execGrant, State.grantOf_eq, State.grantOf_eq]
  rfl

/-- What a GRANT write does to a bank, by whether it is named and whose it is. -/
theorem Fbk.grantBanks_spec (f : Fbk) (a b : Bool) (k : BankId) {named : Bool}
    (bits : (if k = .bankA then a else b) = named) :
    (named = true → (f.bank k).granted = false →
        ((f.grantBanks a b).bank k).granted = true ∧ ∀ i, ((f.grantBanks a b).bank k).desc i = .free)
      ∧ (named = false ∨ (f.bank k).granted = true → (f.grantBanks a b).bank k = f.bank k) := by
  rw [Fbk.grantBanks_bank, bits]
  refine ⟨fun yes host => ?_, fun keep => ?_⟩
  · rw [if_pos yes]
    exact Bank.grant_host host
  · split
    · next yes => exact Bank.grant_granted (keep.resolve_left (by simp [yes]))
    · rfl

/-! ### The search for a descriptor (R145, R146) -/

/-- The bank that a search looks in: the active one, or the other when only that one is GRANTED. -/
def Fbk.searched (f : Fbk) : BankId :=
  if (f.bank f.active).granted = false ∧ (f.bank f.active.other).granted = true then f.active.other else f.active

/-- The descriptor that a search of a bank reads: its first FREE one, when the bank is GRANTED. -/
def Bank.candidate (b : Bank) : Option (Fin 4) := if b.granted then b.firstFree else none

theorem Bank.candidate_host {b : Bank} (host : b.granted = false) : b.candidate = none := if_neg (by simp [host])

section Granted
variable {b : Bank} (granted : b.granted = true)
include granted

theorem Bank.candidate_taken (taken : ∀ i, b.desc i ≠ .free) : b.candidate = none :=
  (if_pos granted).trans (List.find?_eq_none.2 fun i _ => by simpa using taken i)

theorem Bank.candidate_free {i : Fin 4} (free : b.desc i = .free) (first : ∀ k, k < i → b.desc k ≠ .free) :
    b.candidate = some i := by
  refine (if_pos granted).trans
    (List.find?_eq_some_iff_getElem.2 ⟨beq_iff_eq.2 free, i.val, by simp, by simp, fun j earlier => ?_⟩)
  simpa using first ⟨j, by omega⟩ earlier

end Granted

section Search
variable {s : State} {c : Chan}

theorem Fbk.searched_eq (f : Fbk) : f.searched
    = if !(f.bank f.active).granted && (f.bank f.active.other).granted then f.active.other else f.active := by
  simp only [Fbk.searched, Bool.and_eq_true, Bool.not_eq_true']

theorem State.seek_found {i : Fin 4} (found : ((s.fbk.get c).bank (s.fbk.get c).searched).candidate = some i) :
    s.seek c
      = s.setFbk c { s.fbk.get c with active := (s.fbk.get c).searched, search := some (.reading i) } := by
  unfold State.seek
  dsimp only
  rw [← Fbk.searched_eq]
  split
  · next j first =>
    obtain rfl : i = j := Option.some.inj (found.symm.trans first)
    rfl
  · next missing => exact absurd (found.symm.trans missing) nofun

theorem State.seek_noRoom (missing : ((s.fbk.get c).bank (s.fbk.get c).searched).candidate = none) : s.seek c
    = (s.setFbk c { s.fbk.get c with active := (s.fbk.get c).searched, search := none }).toOcc (.noRoom c) := by
  unfold State.seek
  dsimp only
  rw [← Fbk.searched_eq]
  split
  · next i found => exact absurd (missing.symm.trans found) nofun
  · rfl

/-! ### The commands of a search (R145, R146) -/

section Request
variable {rest : List FbkMsg} (request : (s.fbk.get c).inbox = .reserve :: rest)
include request

theorem execReservationRequest_eq : execReservationRequest c s = .next
    (if (s.fbk.get c).hasReserved || (s.fbk.get c).search.isSome then (s.dropFbk c rest).toOcc (.reserveBusy c)
      else (s.dropFbk c rest).seek c) := by
  simp only [execReservationRequest, request, State.dropFbk, State.setFbk_fbk, Pair.get_set]
  rfl

theorem execReservationRequest_busy
    (busy : (s.fbk.get c).search ≠ none ∨ ∃ b i, ((s.fbk.get c).bank b).desc i = .reserved) :
    execReservationRequest c s = .next ((s.dropFbk c rest).toOcc (.reserveBusy c)) := by
  rw [execReservationRequest_eq request, if_pos]
  rwa [Bool.or_eq_true, Fbk.hasReserved_iff, Option.isSome_iff_ne_none, or_comm]

theorem execReservationRequest_free (idle : (s.fbk.get c).search = none)
    (unreserved : ∀ b i, ((s.fbk.get c).bank b).desc i ≠ .reserved) :
    execReservationRequest c s = .next ((s.dropFbk c rest).seek c) := by
  rw [execReservationRequest_eq request, if_neg]
  rw [Bool.or_eq_true, Fbk.hasReserved_iff, idle]
  rintro (⟨b, i, reserved⟩ | search)
  · exact unreserved b i reserved
  · exact absurd search (by decide)

end Request

theorem capUsable_iff {cap : Nat} : capUsable cap = true ↔ 64 ≤ cap ∧ cap % 64 = 0 := by
  simp [capUsable]

section Reading
variable {i : Fin 4} (reading : (s.fbk.get c).search = some (.reading i)) (bytes : List Byte)
include reading

theorem execDescriptorReadComplete_usable (usable : capUsable (descCap bytes) = true) :
    execDescriptorReadComplete c bytes s = .next
      ((s.setFbk c { (s.fbk.get c).setDesc (s.fbk.get c).active i .reserved with search := none }).toOcc
        (.reserved c ⟨(s.fbk.get c).active, i, descAddr bytes, descCap bytes⟩)) := by
  simp only [execDescriptorReadComplete, reading, usable, if_true]

theorem execDescriptorReadComplete_unusable (unusable : ¬capUsable (descCap bytes) = true) :
    execDescriptorReadComplete c bytes s = .next
      ((s.setFbk c { s.fbk.get c with search := some (.writing i) }).issue (.fbk c)
        (s.descAddress c (s.fbk.get c).active i + 12) (unusableBytes s.vau.key)) := by
  simp only [execDescriptorReadComplete, reading, if_neg unusable]

end Reading

theorem execDescriptorReadComplete_early (bytes : List Byte)
    (early : ∀ i, (s.fbk.get c).search ≠ some (.reading i)) : execDescriptorReadComplete c bytes s = .next s := by
  rcases search : (s.fbk.get c).search with _ | i | i
  · simp only [execDescriptorReadComplete, search]
  · exact absurd search (early i)
  · simp only [execDescriptorReadComplete, search]

theorem execUnusableWriteComplete_writing {i : Fin 4} (writing : (s.fbk.get c).search = some (.writing i)) :
    execUnusableWriteComplete c s = .next
      (((s.land fun w => w.writer == .fbk c).fillDesc c (s.fbk.get c).active i false).seek c) := by
  simp only [execUnusableWriteComplete, writing]
  rfl

theorem execUnusableWriteComplete_early (early : ∀ i, (s.fbk.get c).search ≠ some (.writing i)) :
    execUnusableWriteComplete c s = .next s := by
  rcases search : (s.fbk.get c).search with _ | i | i
  · simp only [execUnusableWriteComplete, search]
  · simp only [execUnusableWriteComplete, search]
  · exact absurd search (early i)

end Search

/-! ### The bytes of a descriptor (Tables 7-3, 11-1, 11-12) -/

theorem unusableBytes_laidOut (key : Nat) : LaidOut 12 52 (unusableBytes key) [(12, 1, 8), (20, 4, key)] :=
  (layout_laidOut 64 [⟨12, 1, unusableCode⟩, ⟨20, 4, key⟩] ⟨by simp, by simp⟩).drop (by simp)

theorem resultBytes_laidOut (r : Result) : LaidOut 12 52 (resultBytes r)
    [(12, 1, r.outcome.code), (13, 1, bit r.degraded + 2 * bit r.contact), (14, 1, r.side.code), (15, 1, r.panel),
      (16, 4, r.filled), (20, 4, r.key), (24, 2, r.leaf), (26, 2, r.takeId.toNat), (28, 4, r.tag), (32, 4, r.time),
      (36, 4, r.dose), (40, 2, r.focus), (44, 4, r.check), (48, 4, r.number)] :=
  (layout_laidOut 64 _ ⟨by simp, by simp⟩).drop (by simp)

theorem State.descAddress_eq (s : State) (c : Chan) (b : BankId) (i : Fin 4) : s.descAddress c b i
    = s.exp.base.toNat * 4096 + 0x2000 + (if c = .left then 0 else 512) + (if b = .bankA then 0 else 256)
      + 64 * i.val := by
  cases c <;> cases b <;> rfl

/-- Settles O56: GRANT bank by bank, the search by what it finds, each command by the search it meets, and the
bytes field by field. -/
theorem reservationsSearchTheActiveBank : Obligations.ReservationsSearchTheActiveBank := by
  unfold Obligations.ReservationsSearchTheActiveBank
  refine ⟨fun v s => ⟨_, execGrant_eq v s, rfl, fun c b => ?_⟩,
    fun c s => ⟨fun host => State.seek_noRoom (Bank.candidate_host host),
      fun granted taken => State.seek_noRoom (Bank.candidate_taken granted taken),
      fun i granted free first => State.seek_found (Bank.candidate_free granted free first)⟩,
    fun c rest s request => ⟨execReservationRequest_busy request, execReservationRequest_free request⟩,
    fun c i b s reading => ⟨fun low whole => ?_, fun bad => ?_⟩,
    fun c i s writing => ⟨_, s.land_completed _, execUnusableWriteComplete_writing writing⟩,
    fun c b s => ⟨execDescriptorReadComplete_early b, execUnusableWriteComplete_early⟩,
    unusableBytes_laidOut, fun r => ?_, rfl, rfl, State.descAddress_eq⟩
  · cases c with
    | left => exact ⟨rfl, Fbk.grantBanks_spec _ _ _ b (by cases b <;> rfl)⟩
    | right => exact ⟨rfl, Fbk.grantBanks_spec _ _ _ b (by cases b <;> rfl)⟩
  · exact execDescriptorReadComplete_usable reading b (capUsable_iff.2 ⟨low, whole⟩)
  · refine execDescriptorReadComplete_unusable reading b fun usable => ?_
    obtain ⟨low, whole⟩ := capUsable_iff.1 usable
    exact bad.elim (Nat.not_lt.2 low) (· whole)
  · have flags : bit r.degraded + 2 * bit r.contact
        = (if r.degraded then 1 else 0) + (if r.contact then 2 else 0) := by
      simp only [bit, mul_ite, mul_one, mul_zero]
    rw [← flags]
    exact resultBytes_laidOut r

/-! ### A hand-over (R149) -/

/-- A hand-over, whole: the bank is HOST, the other active, nothing owed, and the channel's note raised. -/
theorem State.handOver_eq (s : State) (c : Chan) (b : BankId) : s.handOver c b = { s with
    fbk := s.fbk.set c { (s.fbk.get c).setBank b { (s.fbk.get c).bank b with granted := false } with
      active := b.other, owed := false }
    exp := { s.exp with note := s.exp.note ||| (if c = .left then 0x02 else 0x04) } } := by
  cases c <;> rfl

/-! ### Descriptors returned and filled (R147, R148, R150) -/

section Return
variable {s : State} {c : Chan} {b : BankId} {i : Fin 4}

theorem State.releaseDesc_unreserved (other : ((s.fbk.get c).bank b).desc i ≠ .reserved) :
    s.releaseDesc c b i = s := if_neg other

section Reserved
variable (reserved : ((s.fbk.get c).bank b).desc i = .reserved)
include reserved

theorem State.releaseDesc_unowed (unowed : (s.fbk.get c).owed = false) :
    s.releaseDesc c b i = s.setFbk c ((s.fbk.get c).setDesc b i .free) :=
  (if_pos reserved).trans (if_neg (by simp [unowed]))

theorem State.releaseDesc_owed (owed : (s.fbk.get c).owed = true) :
    s.releaseDesc c b i = (s.setFbk c ((s.fbk.get c).setDesc b i .free)).handOver c b :=
  (if_pos reserved).trans (if_pos owed)

end Reserved

/-- A bank is full once descriptor i is FILLED exactly when its others are. -/
theorem Fbk.setDesc_full_iff {f : Fbk} : ((f.setDesc b i .filled).bank b).full = true
    ↔ ∀ k, k ≠ i → (f.bank b).desc k = .filled := by
  simp only [Bank.full_iff, Fbk.desc_setDesc, true_and, ite_eq_left_iff]

theorem State.fillDesc_full (r : Bool) (full : ∀ k, k ≠ i → ((s.fbk.get c).bank b).desc k = .filled) :
    s.fillDesc c b i r = (s.setFbk c ((s.fbk.get c).setDesc b i .filled)).handOver c b :=
  if_pos (by rw [Fbk.setDesc_full_iff.2 full, Bool.true_or])

theorem State.fillDesc_owed (owed : (s.fbk.get c).owed = true) :
    s.fillDesc c b i true = (s.setFbk c ((s.fbk.get c).setDesc b i .filled)).handOver c b :=
  if_pos (by rw [owed, Bool.and_self, Bool.or_true])

theorem State.fillDesc_kept {r : Bool} {k : Fin 4} (other : k ≠ i)
    (unfilled : ((s.fbk.get c).bank b).desc k ≠ .filled) (unowed : (s.fbk.get c).owed = false ∨ r = false) :
    s.fillDesc c b i r = s.setFbk c ((s.fbk.get c).setDesc b i .filled) := by
  refine if_neg fun test => ?_
  rw [Bool.or_eq_true, Fbk.setDesc_full_iff, Bool.and_eq_true] at test
  obtain full | ⟨reservation, owed⟩ := test
  · exact unfilled (full k other)
  · simp [reservation, owed] at unowed

/-! ### RELEASE_REQUEST and DESCRIPTOR_FILLED (R146 to R148) -/

section Release
variable {rest : List FbkMsg} (request : (s.fbk.get c).inbox = .release b i :: rest)
include request

theorem execReleaseRequest_idle (idle : (s.fbk.get c).search = none) : execReleaseRequest c s
    = .next (((s.dropFbk c rest).releaseDesc c b i).toOcc (.released c)) := by
  simp only [execReleaseRequest, request, idle]

theorem execReleaseRequest_searching (searching : (s.fbk.get c).search ≠ none) :
    execReleaseRequest c s = .next s := by
  obtain ⟨x, search⟩ := Option.ne_none_iff_exists'.1 searching
  simp only [execReleaseRequest, request, search]

end Release

section Report
variable {rest : List FbkMsg} (report : (s.fbk.get c).inbox = .filled b i :: rest)
include report

theorem execDescriptorFilled_eq : execDescriptorFilled c s = .next
    (if ((s.fbk.get c).bank b).desc i = .reserved then (s.dropFbk c rest).fillDesc c b i true
      else s.dropFbk c rest) := by
  simp only [execDescriptorFilled, report, State.dropFbk, State.setFbk_fbk, Pair.get_set]
  rfl

theorem execDescriptorFilled_reserved (reserved : ((s.fbk.get c).bank b).desc i = .reserved) :
    execDescriptorFilled c s = .next ((s.dropFbk c rest).fillDesc c b i true) := by
  rw [execDescriptorFilled_eq report, if_pos reserved]

theorem execDescriptorFilled_other (other : ((s.fbk.get c).bank b).desc i ≠ .reserved) :
    execDescriptorFilled c s = .next (s.dropFbk c rest) := by
  rw [execDescriptorFilled_eq report, if_neg other]

end Report

end Return

/-! ### The partial hand-over (R150) -/

section Partial
variable {s : State} {c : Chan}

theorem State.partialHandOverOf_host (host : ((s.fbk.get c).bank (s.fbk.get c).active).granted = false) :
    s.partialHandOverOf c = s := by
  simp [State.partialHandOverOf, host]

section Filled
variable (granted : ((s.fbk.get c).bank (s.fbk.get c).active).granted = true)
  (filled : ((s.fbk.get c).bank (s.fbk.get c).active).has .filled = true)
include granted filled

theorem State.partialHandOverOf_handed (unreserved : ((s.fbk.get c).bank (s.fbk.get c).active).has .reserved = false) :
    s.partialHandOverOf c = s.handOver c (s.fbk.get c).active :=
  (if_pos (by rw [granted, filled, Bool.and_self])).trans (if_neg (by simp [unreserved]))

theorem State.partialHandOverOf_owed (reserved : ((s.fbk.get c).bank (s.fbk.get c).active).has .reserved = true) :
    s.partialHandOverOf c = s.setFbk c { s.fbk.get c with owed := true } :=
  (if_pos (by rw [granted, filled, Bool.and_self])).trans (if_pos reserved)

end Filled

end Partial

/-- The test of R150 on one channel: no hand-over, one made, or one owed. -/
theorem State.partialHandOverOf_spec (s : State) (c : Chan) :
    let bank := (s.fbk.get c).bank (s.fbk.get c).active
    (bank.granted = false ∨ (¬∃ i, bank.desc i = .filled) → s.partialHandOverOf c = s)
    ∧ (bank.granted = true → (∃ i, bank.desc i = .filled) → (¬∃ i, bank.desc i = .reserved) →
        s.partialHandOverOf c = s.handOver c (s.fbk.get c).active)
    ∧ (bank.granted = true → (∃ i, bank.desc i = .filled) → (∃ i, bank.desc i = .reserved) →
        s.partialHandOverOf c = s.setFbk c { s.fbk.get c with owed := true }) := by
  simp only [← Bank.has_iff, Bool.not_eq_true]
  exact ⟨fun idle => idle.elim State.partialHandOverOf_host State.partialHandOverOf_idle,
    State.partialHandOverOf_handed, State.partialHandOverOf_owed⟩

/-- Settles O57: the return and the filling by the descriptor and what is owed, the two commands, and the
entry into a state of rest as the test of R150 on LEFT and then on RIGHT. -/
theorem fullBanksAreHandedOver : Obligations.FullBanksAreHandedOver := by
  unfold Obligations.FullBanksAreHandedOver
  intro handed
  have whole : handed = State.handOver := by
    funext s c b
    exact (State.handOver_eq s c b).symm
  clear_value handed
  subst whole
  refine ⟨fun c b i s => ⟨State.releaseDesc_unreserved, State.releaseDesc_unowed, State.releaseDesc_owed,
      State.fillDesc_full, State.fillDesc_owed, fun r k => State.fillDesc_kept, fun k => ⟨?_, ?_⟩⟩,
    fun c b i rest s => ⟨fun request =>
        ⟨execReleaseRequest_idle request, execReleaseRequest_searching request⟩,
      fun report => ⟨execDescriptorFilled_reserved report, execDescriptorFilled_other report⟩⟩,
    fun v s => ⟨_, _, rfl, State.partialHandOverOf_spec _ .left, State.partialHandOverOf_spec _ .right⟩⟩
  · rw [Fbk.bank_setDesc]
    rfl
  · simp only [Fbk.desc_setDesc, true_and]

end Sys2Proof.Machine
end

section
/-! SUPPORT. The exchange port's own operations, one rule each (R161 to R169): the notes, the take, POST, ACK,
and the masks of slots that the registers show. -/

namespace Sys2Proof.Machine

/-! ### Notes (R168) -/

theorem Note.bit_lt (n : Note) : n.bit < 7 := by cases n <;> decide

theorem Exp.raise_note_getLsbD (e : Exp) (n : Note) (k : Nat) :
    (e.raise n).note.getLsbD k = (e.note.getLsbD k || decide (k = n.bit)) := by
  have hn := n.bit_lt
  simp only [Exp.raise, BitVec.getLsbD_or, BitVec.getLsbD_shiftLeft, BitVec.getLsbD_one]
  congr 1
  grind

/-- Every note raised before is raised after. -/
def Exp.NotesKept (e e' : Exp) : Prop := ∀ k, e.note.getLsbD k = true → e'.note.getLsbD k = true

theorem Exp.NotesKept.of_eq {e e' : Exp} (h : e'.note = e.note) : Exp.NotesKept e e' :=
  fun k raised => by rw [h]; exact raised

theorem Exp.NotesKept.trans {e f g : Exp} (h : Exp.NotesKept e f) (k : Exp.NotesKept f g) : Exp.NotesKept e g :=
  fun i raised => k i (h i raised)

theorem Exp.raise_notesKept (e : Exp) (n : Note) : Exp.NotesKept e (e.raise n) :=
  fun k raised => by rw [Exp.raise_note_getLsbD, raised, Bool.true_or]

/-- Each of the seven bits is a note's (Table 11-14). -/
theorem Note.exists_bit {k : Nat} (hk : k < 7) : ∃ n : Note, n.bit = k := by
  match k with
  | 0 => exact ⟨.answer, rfl⟩
  | 1 => exact ⟨.bankL, rfl⟩
  | 2 => exact ⟨.bankR, rfl⟩
  | 3 => exact ⟨.hand, rfl⟩
  | 4 => exact ⟨.volumeEnd, rfl⟩
  | 5 => exact ⟨.mispost, rfl⟩
  | 6 => exact ⟨.arm, rfl⟩

/-- INT is asserted while a note is raised with its enable set (R169). -/
theorem Exp.int_iff (e : Exp) :
    e.int = true ↔ ∃ n : Note, e.note.getLsbD n.bit = true ∧ e.noteMask.getLsbD n.bit = true := by
  have zero : e.int = true ↔ e.note &&& e.noteMask ≠ 0 := bne_iff_ne
  rw [zero]
  constructor
  · intro some
    by_contra none
    simp only [not_exists, not_and] at none
    refine some (BitVec.eq_of_getLsbD_eq fun k hk => ?_)
    obtain ⟨n, rfl⟩ := Note.exists_bit hk
    simpa using none n
  · rintro ⟨n, raised, enabled⟩ zero
    have : (e.note &&& e.noteMask).getLsbD n.bit = (0 : BitVec 7).getLsbD n.bit := by rw [zero]
    simp [raised, enabled] at this

/-- NOTE and NOTE_MASK as whole registers. -/
theorem noteWord_getLsbD (n : BitVec 7) (k : Nat) : (noteWord n).getLsbD k = n.getLsbD k := by
  have := n.getLsbD_of_ge k
  simp only [noteWord, BitVec.truncate_eq_setWidth, BitVec.getLsbD_setWidth]
  grind

theorem noteWord_getLsbD_of_ge (n : BitVec 7) {k : Nat} (hk : 7 ≤ k) : (noteWord n).getLsbD k = false :=
  (noteWord_getLsbD n k).trans (BitVec.getLsbD_of_ge n k hk)

/-- NOTE and NOTE_MASK show their seven bits. -/
theorem noteWord_extractLsb' (n : BitVec 7) : (noteWord n).extractLsb' 0 7 = n := by
  refine BitVec.eq_of_getLsbD_eq fun k hk => ?_
  rw [BitVec.getLsbD_extractLsb', decide_eq_true hk, Bool.true_and, Nat.zero_add, noteWord_getLsbD]

/-! ### The take (R163, R164) -/

theorem Exp.tryTake_idle {e : Exp} (idle : e.enable = false ∨ e.take ≠ none ∨ e.queue = []) : e.tryTake = e := by
  unfold Exp.tryTake
  split
  · simp_all
  · rfl

theorem Exp.tryTake_head {e : Exp} {i : Fin 16} {rest : List (Fin 16)} (enable : e.enable = true)
    (take : e.take = none) (queue : e.queue = i :: rest) :
    e.tryTake = { e.setSlot i .taken with take := some i, queue := rest } := by
  simp only [Exp.tryTake, enable, take, queue]

/-- The test of R163 has two outcomes: nothing is taken, or the head of the queue. -/
theorem Exp.tryTake_cases (e : Exp) : e.tryTake = e ∨ ∃ i rest, e.take = none ∧ e.queue = i :: rest
    ∧ e.tryTake = { e.setSlot i .taken with take := some i, queue := rest } := by
  by_cases idle : e.enable = false ∨ e.take ≠ none ∨ e.queue = []
  · exact .inl (Exp.tryTake_idle idle)
  · simp only [not_or, Bool.not_eq_false, not_not] at idle
    obtain ⟨enable, take, queue⟩ := idle
    obtain ⟨i, rest, queue⟩ := List.exists_cons_of_ne_nil queue
    exact .inr ⟨i, rest, take, queue, Exp.tryTake_head enable take queue⟩

@[simp] theorem Exp.tryTake_note (e : Exp) : e.tryTake.note = e.note := by
  obtain h | ⟨i, rest, -, -, h⟩ := e.tryTake_cases <;> rw [h]; rfl

/-- A take answers no slot and frees none that is ANSWERED, since a slot in the queue is PENDING. -/
theorem Exp.tryTake_slot_answered {e : Exp} {j : Fin 16} (queued : j ∈ e.queue → e.slot j = .pending) :
    e.tryTake.slot j = .answered ↔ e.slot j = .answered := by
  obtain h | ⟨i, rest, -, queue, h⟩ := e.tryTake_cases <;> rw [h]
  show (e.setSlot i .taken).slot j = .answered ↔ _
  rw [Exp.slot_setSlot]
  split
  · next same =>
    subst same
    rw [queued (by simp [queue])]
    exact ⟨nofun, nofun⟩
  · rfl

/-- A take leaves the slots that are not in the queue. -/
theorem Exp.tryTake_slot_of_not_mem {e : Exp} {j : Fin 16} (out : j ∉ e.queue) : e.tryTake.slot j = e.slot j := by
  obtain h | ⟨i, rest, -, queue, h⟩ := e.tryTake_cases <;> rw [h]
  show (e.setSlot i .taken).slot j = _
  rw [Exp.slot_setSlot, if_neg]
  rintro rfl
  exact out (by simp [queue])

/-- A slot that waits goes on waiting over a take, or is the one taken (R163, R164). -/
theorem Exp.tryTake_queued {e : Exp} {j : Fin 16} (queued : j ∈ e.queue) (pending : e.slot j = .pending) :
    (e.tryTake.slot j = .pending ∧ j ∈ e.tryTake.queue)
      ∨ (e.tryTake.slot j = .taken ∧ e.tryTake.take = some j) := by
  obtain h | ⟨i, rest, -, queue, h⟩ := e.tryTake_cases <;> rw [h]
  · exact .inl ⟨pending, queued⟩
  · show ((e.setSlot i .taken).slot j = .pending ∧ j ∈ rest)
      ∨ ((e.setSlot i .taken).slot j = .taken ∧ some i = some j)
    rw [Exp.slot_setSlot]
    by_cases same : i = j
    · exact .inr ⟨if_pos same, congrArg some same⟩
    · rw [if_neg same]
      rw [queue, List.mem_cons] at queued
      exact .inl ⟨pending, queued.resolve_left (Ne.symm same)⟩

/-- A take removes the head from the queue and from the PENDING slots alike (R161, R164). -/
theorem Exp.QueueExact.tryTake {e : Exp} (sound : e.QueueExact) : e.tryTake.QueueExact := by
  obtain h | ⟨i, rest, -, queue, h⟩ := e.tryTake_cases <;> rw [h]
  · exact sound
  · obtain ⟨nodup, pending⟩ := sound
    rw [queue, List.nodup_cons] at nodup
    refine ⟨nodup.2, fun j => ?_⟩
    show j ∈ rest ↔ (e.setSlot i .taken).slot j = .pending
    rw [Exp.slot_setSlot]
    by_cases same : i = j
    · subst same
      simp [nodup.1]
    · rw [if_neg same, ← pending j, queue, List.mem_cons]
      simp [Ne.symm same]

/-- The exact queue rests on the queue and the slots alone. -/
theorem Exp.QueueExact.congr {e e' : Exp} (sound : e.QueueExact) (queue : e'.queue = e.queue)
    (slots : e'.slots = e.slots) : e'.QueueExact where
  nodup := queue ▸ sound.nodup
  pending i := by
    rw [queue, sound.pending, Exp.slot, Exp.slot, slots]

/-- A slot that is not PENDING before and after may change its state. -/
theorem Exp.QueueExact.setSlot {e : Exp} (sound : e.QueueExact) {i : Fin 16} {st : SlotState}
    (before : e.slot i ≠ .pending) (after : st ≠ .pending) : (e.setSlot i st).QueueExact where
  nodup := sound.nodup
  pending j := by
    rw [Exp.setSlot_queue, sound.pending, Exp.slot_setSlot]
    split
    · next same =>
      subst same
      exact ⟨fun h => absurd h before, fun h => absurd h after⟩
    · rfl

/-! ### POST (R162) -/

/-- The slots of a list posted in turn, where the write names them: a POST posts all sixteen. -/
def Exp.postAll (v : Word32) (e : Exp) (l : List (Fin 16)) : Exp :=
  l.foldl (fun e i => if v.getLsbD i.val then e.postOne i else e) e

theorem Exp.post_eq (e : Exp) (v : Word32) : e.post v = e.postAll v (List.finRange 16) := rfl

theorem Exp.postOne_free {e : Exp} {i : Fin 16} (free : e.slot i = .free) :
    e.postOne i = { e.setSlot i .pending with queue := e.queue ++ [i] } := if_pos free

theorem Exp.postOne_mispost {e : Exp} {i : Fin 16} (held : e.slot i ≠ .free) :
    e.postOne i = { e.raise .mispost with lastMispost := i } := if_neg held

theorem Exp.postOne_slot (e : Exp) (i j : Fin 16) :
    (e.postOne i).slot j = if j = i ∧ e.slot j = .free then .pending else e.slot j := by
  by_cases free : e.slot i = .free
  · rw [Exp.postOne_free free]
    show (e.setSlot i .pending).slot j = _
    rw [Exp.slot_setSlot]
    by_cases same : i = j
    · subst same
      simp [free]
    · simp [same, Ne.symm same]
  · rw [Exp.postOne_mispost free]
    show e.slot j = _
    rw [if_neg]
    rintro ⟨rfl, h⟩
    exact free h

/-- A posted slot changes its state, the queue, a note and the last mispost, and nothing else. -/
theorem Exp.postOne_frame (e : Exp) (i : Fin 16) : e.postOne i = { e with
    slots := (e.postOne i).slots, queue := (e.postOne i).queue, note := (e.postOne i).note
    lastMispost := (e.postOne i).lastMispost } := by
  unfold Exp.postOne
  split <;> rfl

section PostAll
variable {v : Word32} {e : Exp} {i : Fin 16} {l : List (Fin 16)}

theorem Exp.postAll_cons : e.postAll v (i :: l) = (if v.getLsbD i.val then e.postOne i else e).postAll v l := rfl

theorem Exp.postAll_frame (v : Word32) (e : Exp) (l : List (Fin 16)) : e.postAll v l = { e with
    slots := (e.postAll v l).slots, queue := (e.postAll v l).queue, note := (e.postAll v l).note
    lastMispost := (e.postAll v l).lastMispost } := by
  induction l generalizing e with
  | nil => rfl
  | cons i l ih =>
    rw [Exp.postAll_cons, ih]
    split
    · rw [Exp.postOne_frame e i]
    · rfl

theorem Exp.postAll_slot (v : Word32) (e : Exp) (l : List (Fin 16)) (j : Fin 16) : (e.postAll v l).slot j
    = if j ∈ l ∧ v.getLsbD j.val = true ∧ e.slot j = .free then .pending else e.slot j := by
  induction l generalizing e with
  | nil => simp [Exp.postAll]
  | cons i l ih =>
    rw [Exp.postAll_cons, ih]
    split
    · next named =>
      rw [Exp.postOne_slot]
      by_cases same : j = i
      · subst same
        by_cases free : e.slot j = .free <;> simp [named, free]
      · simp [same]
    · next out =>
      by_cases same : j = i
      · subst same
        simp [out]
      · simp [same]

/-- What one post leaves of the FREE slots that stand further on in the list. -/
theorem Exp.ite_postOne_slot_tail (nodup : (i :: l).Nodup) :
    ∀ j ∈ l, (if v.getLsbD i.val then e.postOne i else e).slot j = e.slot j := by
  intro j hj
  split
  · rw [Exp.postOne_slot, if_neg]
    rintro ⟨rfl, -⟩
    exact (List.nodup_cons.1 nodup).1 hj
  · rfl

theorem Exp.postAll_queue (nodup : l.Nodup) : (e.postAll v l).queue
    = e.queue ++ l.filter (fun i => v.getLsbD i.val && e.slot i == .free) := by
  induction l generalizing e with
  | nil => simp [Exp.postAll]
  | cons i l ih =>
    have tail := Exp.ite_postOne_slot_tail (v := v) (e := e) nodup
    rw [Exp.postAll_cons, ih (List.nodup_cons.1 nodup).2, List.filter_cons,
      List.filter_congr (q := fun i => v.getLsbD i.val && e.slot i == .free) (fun j hj => by rw [tail j hj])]
    by_cases named : v.getLsbD i.val = true
    · by_cases free : e.slot i = .free
      · simp [named, free, Exp.postOne_free free]
      · simp [named, free, Exp.postOne_mispost free]
    · simp [named]

theorem Exp.postOne_notesKept (e : Exp) (i : Fin 16) : Exp.NotesKept e (e.postOne i) := by
  by_cases free : e.slot i = .free
  · rw [Exp.postOne_free free]
    exact .of_eq rfl
  · rw [Exp.postOne_mispost free]
    exact e.raise_notesKept .mispost

theorem Exp.postAll_notesKept (v : Word32) (e : Exp) (l : List (Fin 16)) : Exp.NotesKept e (e.postAll v l) := by
  induction l generalizing e with
  | nil => exact .of_eq rfl
  | cons i l ih =>
    rw [Exp.postAll_cons]
    split
    · exact (e.postOne_notesKept i).trans (ih _)
    · exact ih e

/-- A mispost anywhere in the list raises the note (R162). -/
theorem Exp.postAll_note_mispost (hi : i ∈ l) (named : v.getLsbD i.val = true) (held : e.slot i ≠ .free) :
    (e.postAll v l).note.getLsbD Note.mispost.bit = true := by
  induction l generalizing e with
  | nil => cases hi
  | cons k l ih =>
    rw [Exp.postAll_cons]
    by_cases same : k = i
    · subst same
      rw [if_pos named, Exp.postOne_mispost held]
      exact Exp.postAll_notesKept v _ l _ (by simp [Exp.raise_note_getLsbD])
    · refine ih ((List.mem_cons.1 hi).resolve_left (Ne.symm same)) ?_
      split
      · rw [Exp.postOne_slot, if_neg (fun h => same h.1.symm)]
        exact held
      · exact held

/-- With no mispost the note and the last mispost stand. -/
theorem Exp.postAll_of_free (nodup : l.Nodup) (free : ∀ i ∈ l, v.getLsbD i.val = true → e.slot i = .free) :
    (e.postAll v l).note = e.note ∧ (e.postAll v l).lastMispost = e.lastMispost := by
  induction l generalizing e with
  | nil => exact ⟨rfl, rfl⟩
  | cons i l ih =>
    have tail := Exp.ite_postOne_slot_tail (v := v) (e := e) nodup
    have rest := ih (List.nodup_cons.1 nodup).2
      (e := if v.getLsbD i.val then e.postOne i else e)
      (fun j hj named => (tail j hj).trans (free j (List.mem_cons_of_mem _ hj) named))
    rw [Exp.postAll_cons]
    split at rest
    · next named =>
      rw [if_pos named]
      rw [Exp.postOne_free (free i List.mem_cons_self named)] at rest ⊢
      exact rest
    · next out =>
      rw [if_neg out]
      exact rest

/-- The highest mispost of a rising list is the last one, and the note is raised (R162). -/
theorem Exp.postAll_of_mispost (rising : l.Pairwise (· < ·)) (hi : i ∈ l) (named : v.getLsbD i.val = true)
    (held : e.slot i ≠ .free)
    (above : ∀ j ∈ l, i < j → v.getLsbD j.val = true → e.slot j = .free) :
    (e.postAll v l).note = e.note ||| 0x20 ∧ (e.postAll v l).lastMispost = i := by
  induction l generalizing e with
  | nil => cases hi
  | cons k l ih =>
    have nodup : (k :: l).Nodup := rising.imp ne_of_lt
    have tail := Exp.ite_postOne_slot_tail (v := v) (e := e) nodup
    obtain ⟨lower, rising⟩ := List.pairwise_cons.1 rising
    rw [Exp.postAll_cons]
    by_cases same : k = i
    · subst same
      have rest := Exp.postAll_of_free (v := v) (e := e.postOne k) (List.nodup_cons.1 nodup).2 (fun j hj hv => by
        have := tail j hj
        rw [if_pos named] at this
        rw [this]
        exact above j (List.mem_cons_of_mem _ hj) (lower j hj) hv)
      rw [if_pos named]
      rw [Exp.postOne_mispost held] at rest ⊢
      exact rest
    · have hi : i ∈ l := (List.mem_cons.1 hi).resolve_left (Ne.symm same)
      obtain ⟨note, last⟩ := ih (e := if v.getLsbD k.val then e.postOne k else e) rising hi
        (by rw [tail i hi]; exact held)
        (fun j hj hij hv => by rw [tail j hj]; exact above j (List.mem_cons_of_mem _ hj) hij hv)
      refine ⟨note.trans ?_, last⟩
      split
      · by_cases free : e.slot k = .free
        · rw [Exp.postOne_free free]; rfl
        · rw [Exp.postOne_mispost free]
          show e.note ||| 0x20 ||| 0x20 = _
          rw [BitVec.or_assoc, BitVec.or_self]
      · rfl

end PostAll

/-- The slots after a POST. -/
theorem Exp.post_slot (e : Exp) (v : Word32) (i : Fin 16) : (e.post v).slot i
    = if v.getLsbD i.val = true ∧ e.slot i = .free then .pending else e.slot i := by
  rw [Exp.post_eq, Exp.postAll_slot]
  simp [List.mem_finRange]

/-- The slots of one write join in ascending number, after every slot of earlier writes (R162). -/
theorem Exp.post_queue (e : Exp) (v : Word32) : (e.post v).queue
    = e.queue ++ (List.finRange 16).filter (fun i => v.getLsbD i.val && e.slot i == .free) :=
  Exp.postAll_queue (List.nodup_finRange 16)

theorem Exp.mem_post_queue (e : Exp) (v : Word32) (i : Fin 16) :
    i ∈ (e.post v).queue ↔ i ∈ e.queue ∨ (v.getLsbD i.val = true ∧ e.slot i = .free) := by
  simp [Exp.post_queue, List.mem_finRange]

/-- A queue of PENDING slots, each once, goes on so over a POST. -/
theorem Exp.post_queue_nodup {e : Exp} (v : Word32) (nodup : e.queue.Nodup)
    (pending : ∀ i ∈ e.queue, e.slot i = .pending) : (e.post v).queue.Nodup := by
  rw [Exp.post_queue]
  refine List.Nodup.append nodup ((List.nodup_finRange 16).filter _) fun i hq hf => ?_
  simp [pending i hq] at hf

theorem Exp.post_queue_pending {e : Exp} (v : Word32) (pending : ∀ i ∈ e.queue, e.slot i = .pending) :
    ∀ i ∈ (e.post v).queue, (e.post v).slot i = .pending := by
  intro i hi
  rw [Exp.post_slot]
  obtain queued | fresh := (e.mem_post_queue v i).1 hi
  · rw [pending i queued, if_neg (fun h => nomatch h.2)]
  · exact if_pos fresh

theorem Exp.QueueExact.post {e : Exp} (sound : e.QueueExact) (v : Word32) : (e.post v).QueueExact := by
  refine ⟨Exp.post_queue_nodup v sound.nodup fun i => (sound.pending i).1, fun i =>
    ⟨Exp.post_queue_pending v (fun i => (sound.pending i).1) i, fun pending => ?_⟩⟩
  rw [Exp.mem_post_queue, sound.pending]
  rw [Exp.post_slot] at pending
  split at pending
  · next fresh => exact .inr fresh
  · exact .inl pending

/-- A POST neither answers a slot nor frees an ANSWERED one. -/
theorem Exp.post_slot_answered (e : Exp) (v : Word32) (i : Fin 16) :
    (e.post v).slot i = .answered ↔ e.slot i = .answered := by
  rw [Exp.post_slot]
  split
  · next fresh =>
    rw [fresh.2]
    exact ⟨nofun, nofun⟩
  · rfl

/-- A write that names no slot. -/
theorem Exp.post_of_unnamed (e : Exp) {v : Word32} (unnamed : ∀ i : Fin 16, v.getLsbD i.val = false) :
    e.post v = e := by
  rw [Exp.post_eq]
  induction List.finRange 16 with
  | nil => rfl
  | cons i l ih => rw [Exp.postAll_cons, unnamed i]; exact ih

/-! ### ACK (R167) -/

/-- The slots of a list freed in turn, where the write names them and they are ANSWERED: an ACK goes through all
sixteen. -/
def Exp.ackAll (v : Word32) (e : Exp) (l : List (Fin 16)) : Exp :=
  l.foldl (fun e i => if v.getLsbD i.val then e.ackOne i else e) e

/-- The port after an ACK. -/
def Exp.ack (e : Exp) (v : Word32) : Exp := e.ackAll v (List.finRange 16)

theorem execAck_eq (v : Word32) (s : State) : execAck v s = .next { s with exp := s.exp.ack v } := rfl

theorem Exp.ackOne_slot (e : Exp) (i j : Fin 16) :
    (e.ackOne i).slot j = if j = i ∧ e.slot j = .answered then .free else e.slot j := by
  unfold Exp.ackOne
  split
  · next answered =>
    rw [Exp.slot_setSlot]
    by_cases same : i = j
    · subst same
      simp [answered]
    · simp [same, Ne.symm same]
  · next other =>
    rw [if_neg]
    rintro ⟨rfl, h⟩
    exact other h

theorem Exp.ackOne_frame (e : Exp) (i : Fin 16) : e.ackOne i = { e with slots := (e.ackOne i).slots } := by
  unfold Exp.ackOne
  split <;> rfl

theorem Exp.ackAll_cons (v : Word32) (e : Exp) (i : Fin 16) (l : List (Fin 16)) :
    e.ackAll v (i :: l) = (if v.getLsbD i.val then e.ackOne i else e).ackAll v l := rfl

/-- An ACK changes the states of slots and nothing else. -/
theorem Exp.ackAll_frame (v : Word32) (e : Exp) (l : List (Fin 16)) :
    e.ackAll v l = { e with slots := (e.ackAll v l).slots } := by
  induction l generalizing e with
  | nil => rfl
  | cons i l ih =>
    rw [Exp.ackAll_cons, ih]
    split
    · rw [Exp.ackOne_frame]
    · rfl

theorem Exp.ackAll_slot (v : Word32) (e : Exp) (l : List (Fin 16)) (j : Fin 16) : (e.ackAll v l).slot j
    = if j ∈ l ∧ v.getLsbD j.val = true ∧ e.slot j = .answered then .free else e.slot j := by
  induction l generalizing e with
  | nil => simp [Exp.ackAll]
  | cons i l ih =>
    rw [Exp.ackAll_cons, ih]
    split
    · next named =>
      rw [Exp.ackOne_slot]
      by_cases same : j = i
      · subst same
        by_cases answered : e.slot j = .answered <;> simp [named, answered]
      · simp [same]
    · next out =>
      by_cases same : j = i
      · subst same
        simp [out]
      · simp [same]

theorem Exp.ack_frame (e : Exp) (v : Word32) : e.ack v = { e with slots := (e.ack v).slots } := Exp.ackAll_frame ..

theorem Exp.ack_slot (e : Exp) (v : Word32) (i : Fin 16) : (e.ack v).slot i
    = if v.getLsbD i.val = true ∧ e.slot i = .answered then .free else e.slot i := by
  rw [Exp.ack, Exp.ackAll_slot]
  simp [List.mem_finRange]

theorem Exp.QueueExact.ack {e : Exp} (sound : e.QueueExact) (v : Word32) : (e.ack v).QueueExact := by
  have queue : (e.ack v).queue = e.queue := by rw [Exp.ack_frame]
  refine ⟨queue ▸ sound.nodup, fun i => ?_⟩
  rw [queue, sound.pending, Exp.ack_slot]
  split
  · next answered =>
    rw [answered.2]
    exact ⟨nofun, nofun⟩
  · rfl

/-! ### Masks (R161, R162) -/

/-- A bit of a mask built slot by slot: it was there, or a slot of the list sets it. -/
theorem slotMask_foldl_getLsbD (p : Fin 16 → Bool) (l : List (Fin 16)) (m : Word32) (k : Nat) :
    (l.foldl (fun m i => if p i then m ||| (1#32 <<< i.val) else m) m).getLsbD k
      = (m.getLsbD k || l.any (fun i => p i && i.val == k)) := by
  induction l generalizing m with
  | nil => simp
  | cons i l ih =>
    have one : (1#32 <<< i.val).getLsbD k = (i.val == k) := by
      simp only [BitVec.getLsbD_shiftLeft, BitVec.getLsbD_one]
      grind
    rw [List.foldl_cons, ih, List.any_cons]
    cases p i <;> simp [one, Bool.or_assoc]

theorem slotMask_getLsbD (p : Fin 16 → Bool) (i : Fin 16) : (slotMask p).getLsbD i.val = p i := by
  rw [slotMask, slotMask_foldl_getLsbD, Bool.eq_iff_iff]
  simp [List.any_eq_true, List.mem_finRange, ← Fin.ext_iff]

theorem slotMask_getLsbD_of_ge (p : Fin 16 → Bool) {k : Nat} (hk : 16 ≤ k) : (slotMask p).getLsbD k = false := by
  rw [slotMask, slotMask_foldl_getLsbD, List.any_eq_false.2]
  · simp
  · intro i _
    simp [(Nat.lt_of_lt_of_le i.isLt hk).ne]

theorem State.readRegister_post (s : State) (i : Fin 16) :
    (s.readRegister .post).getLsbD i.val = (s.exp.slot i == .pending) := slotMask_getLsbD _ i

theorem State.readRegister_answered (s : State) (i : Fin 16) :
    (s.readRegister .answered).getLsbD i.val = (s.exp.slot i == .answered) := slotMask_getLsbD _ i

end Sys2Proof.Machine
end

section
/-! SUPPORT. What the other blocks leave of the exchange port: they raise notes through it (R168) and take their
orders from it (R163), and its slots, its queue and its other items stay as they are. One lemma for each of their
operations that the laws above do not already cover. -/

namespace Sys2Proof.Machine

/-- A change of the port from outside: notes raised, orders taken, and nothing else. -/
structure Exp.Outside (e e' : Exp) : Prop where
  frame : e' = { e with note := e'.note, orders := e'.orders }
  note : Exp.NotesKept e e'

@[simp] theorem Exp.Outside.refl (e : Exp) : Exp.Outside e e := ⟨rfl, fun _ h => h⟩

theorem Exp.Outside.trans {e f g : Exp} (h : Exp.Outside e f) (k : Exp.Outside f g) : Exp.Outside e g :=
  ⟨by rw [k.frame, h.frame], h.note.trans k.note⟩

theorem Exp.Outside.of_eq {e e' : Exp} (h : e' = e) : Exp.Outside e e' := h ▸ .refl e

theorem Exp.raise_outside (e : Exp) (n : Note) : Exp.Outside e (e.raise n) :=
  ⟨rfl, e.raise_notesKept n⟩

theorem State.Kept.outside {s t : State} (h : State.Kept s t) : Exp.Outside s.exp t.exp := ⟨h.exp, h.note⟩

theorem State.releaseDesc_outside (s : State) (c : Chan) (b : BankId) (i : Fin 4) :
    Exp.Outside s.exp (s.releaseDesc c b i).exp := (State.releaseDesc_banked ..).kept.outside

/-! ### The cameras and the light unit (chapters 6 and 7) -/

@[simp] theorem State.landBody_exp (s : State) (c : Chan) : (s.landBody c).exp = s.exp := rfl
@[simp] theorem State.issueResult_exp (s : State) (c : Chan) (d : Reservation) (r : Result) :
    (s.issueResult c d r).exp = s.exp := rfl
@[simp] theorem State.arm_exp (s : State) (c : Chan) (q : ArmReq) : (s.arm c q).exp = s.exp := rfl
@[simp] theorem State.charge_exp (s : State) (cs : ChanSet) (k : ExpClass) (d : DoseCase) :
    (s.charge cs k d).exp = s.exp := rfl
@[simp] theorem State.beginStrobe_exp (s : State) (r : ExposureRec) : (s.beginStrobe r).exp = s.exp := rfl

@[simp] theorem State.endFrame_exp (s : State) (c : Chan) (ok : Bool) : (s.endFrame c ok).exp = s.exp := by
  unfold State.endFrame
  dsimp only
  split
  · rfl
  · split <;> rfl

@[simp] theorem State.startMark_exp (s : State) (c : Chan) : (s.startMark c).exp = s.exp := by
  unfold State.startMark
  dsimp only
  split <;> simp

@[simp] theorem State.takeByte_exp (s : State) (c : Chan) (b : Byte) : (s.takeByte c b).exp = s.exp := by
  unfold State.takeByte
  dsimp only
  split
  · split <;> rfl
  · rfl

@[simp] theorem State.cutTake_exp (s : State) (c : Chan) (t : TakeRec) : (s.cutTake c t).exp = s.exp := rfl

/-- A LOST take gives its descriptor back, which may hand a bank over (R136, R147). -/
theorem State.loseTake_outside (s : State) (c : Chan) (t : TakeRec) : Exp.Outside s.exp (s.loseTake c t).exp := by
  unfold State.loseTake
  dsimp only
  split
  · rw [State.toOcc_exp]
    refine .trans (.of_eq ?_) (State.releaseDesc_outside ..)
    rfl
  · refine .trans (.of_eq ?_) (State.releaseDesc_outside ..)
    rfl

@[simp] theorem State.notifyAll_exp (s : State) (cs : ChanSet) (f : Chan → Notice) :
    (s.notifyAll cs f).exp = s.exp := by rw [State.notifyAll_eq]

@[simp] theorem State.considerAdmission_exp (s : State) (cs : ChanSet) (k : ExpClass) :
    (s.considerAdmission cs k).exp = s.exp := by
  unfold State.considerAdmission
  dsimp only
  split <;> rfl

@[simp] theorem State.fire_exp (s : State) (r : ExposureRec) : (s.fire r).exp = s.exp := by
  unfold State.fire
  split <;> simp

@[simp] theorem State.lampsOff_exp (s : State) : s.lampsOff.exp = s.exp := by
  unfold State.lampsOff
  dsimp only
  split <;> rfl

@[simp] theorem State.endStrobe_exp (s : State) (r : ExposureRec) (k : NoticeKind) (a : FireReply) :
    (s.endStrobe r k a).exp = s.exp := by simp [State.endStrobe]

theorem State.nextLdu_exp {s t : State} {m : LduMsg} (h : s.nextLdu = some (m, t)) : t.exp = s.exp := by
  unfold State.nextLdu at h
  split at h
  · cases h
  · cases h; rfl

/-! ### The turn sequencer (chapter 5) -/

@[simp] theorem State.settle_exp (s : State) (b : Bool) : (s.settle b).exp = s.exp := by
  unfold State.settle
  split <;> rfl

@[simp] theorem State.answerTurn_exp (s : State) (r : TurnReply) : (s.answerTurn r).exp = s.exp := rfl
@[simp] theorem State.stallTurn_exp (s : State) : s.stallTurn.exp = s.exp := rfl
@[simp] theorem State.acceptTurn_exp (s : State) (c : Nat) : (s.acceptTurn c).exp = s.exp := rfl

theorem State.holdArm_outside (s : State) : Exp.Outside s.exp s.holdArm.exp := Exp.raise_outside ..
theorem State.cutArm_outside (s : State) : Exp.Outside s.exp s.cutArm.exp := Exp.raise_outside ..

@[simp] theorem State.finishDown_exp (s : State) : s.finishDown.exp = s.exp := by
  unfold State.finishDown
  split
  · rfl
  · split
    · rfl
    · split <;> rfl
  · rfl

@[simp] theorem State.arriveDown_exp (s : State) (p : Platen) : (s.arriveDown p).exp = s.exp :=
  State.finishDown_exp _

@[simp] theorem State.beginPlatenDown_exp (s : State) : s.beginPlatenDown.exp = s.exp := by
  unfold State.beginPlatenDown
  dsimp only
  split
  · simp
  · split <;> simp

@[simp] theorem State.failAttempt_exp (s : State) (r : Nat) (x : LiftReading) : (s.failAttempt r x).exp = s.exp :=
  (State.changeAccount_issued ..).exp

theorem State.dropLeaf_outside (s : State) (r : Nat) : Exp.Outside s.exp (s.dropLeaf r).exp := by
  rw [State.dropLeaf_eq]
  exact Exp.raise_outside s.exp .arm

theorem State.armStall_outside (s : State) : Exp.Outside s.exp s.armStall.exp := by
  unfold State.armStall
  split
  · exact State.holdArm_outside s
  · exact State.holdArm_outside s
  · exact State.cutArm_outside s
  · exact .refl _
  · exact .refl _

@[simp] theorem State.platenStall_exp (s : State) : s.platenStall.exp = s.exp := by
  unfold State.platenStall
  dsimp only
  split <;> rfl

theorem State.stageExpired_outside (s : State) : Exp.Outside s.exp s.stageExpired.exp := by
  unfold State.stageExpired
  split
  · exact State.holdArm_outside s
  · simp
  · simp
  · split
    · exact State.cutArm_outside s
    · exact State.holdArm_outside s
  · exact State.armStall_outside s

@[simp] theorem State.stopTurn_exp (s : State) (g : Stage) : (s.stopTurn g).exp = s.exp := by
  unfold State.stopTurn
  split
  case h_7 => split <;> rfl
  all_goals simp

@[simp] theorem State.endRelease_exp (s : State) (r : Nat) : (s.endRelease r).exp = s.exp := by
  unfold State.endRelease
  split <;> rfl

@[simp] theorem State.park_exp (s : State) (i : Fin 16) (release : Bool) : (s.park i release).exp = s.exp := by
  unfold State.park
  dsimp only
  repeat' split
  all_goals rfl

@[simp] theorem State.armRestore_exp (s : State) (i : Fin 16) : (s.armRestore i).exp = s.exp := by
  unfold State.armRestore
  repeat' split
  all_goals rfl

/-! ### The orders of PFS and VAU (chapters 1 to 3) -/

@[simp] theorem State.startLoads_exp (s : State) (l : List (Fin 16)) : (s.startLoads l).exp = s.exp := by
  induction l generalizing s with
  | nil => rfl
  | cons i l ih =>
    unfold State.startLoads
    split
    · rfl
    · rw [ih]; rfl

@[simp] theorem State.endLoad_exp (s : State) (i : Fin 16) (k : AnswerCode) (f : List FieldVal) :
    (s.endLoad i k f).exp = s.exp := by simp [State.endLoad]

@[simp] theorem State.startOpens_exp (s : State) (l : List (Fin 16)) : (s.startOpens l).exp = s.exp := by
  induction l generalizing s with
  | nil => rfl
  | cons i l ih =>
    unfold State.startOpens
    split
    · rfl
    · rw [ih]; rfl

@[simp] theorem State.endOpen_exp (s : State) (i : Fin 16) (k : AnswerCode) (f : List FieldVal) :
    (s.endOpen i k f).exp = s.exp := by simp [State.endOpen]

theorem State.resyncChannel_outside (s : State) (c : Chan) : Exp.Outside s.exp (s.resyncChannel c).exp := by
  unfold State.resyncChannel
  dsimp only
  split
  · refine .trans (.of_eq ?_) (State.releaseDesc_outside ..)
    rfl
  · exact .refl _

@[simp] theorem State.activateA_exp (s : State) (c : Chan) : (s.activateA c).exp = s.exp := rfl

theorem State.setUp_outside (s : State) (d : Nat) : Exp.Outside s.exp (s.setUp d).exp := by
  unfold State.setUp
  dsimp only
  rw [State.activateA_exp, State.activateA_exp]
  refine .trans (.trans (.of_eq ?_) (State.resyncChannel_outside _ .left)) (State.resyncChannel_outside _ .right)
  rfl

@[simp] theorem State.amend_exp (s : State) (i : Fin 16) (e k : Nat) : (s.amend i e k).exp = s.exp := by
  unfold State.amend
  dsimp only
  repeat' split
  all_goals first | rfl | exact (State.changeAccount_issued ..).exp

theorem State.acceptHandDone_outside (s : State) (i : Fin 16) (step : HandStep) (c : Nat) :
    Exp.Outside s.exp (s.acceptHandDone i step c).exp := by
  rw [State.acceptHandDone_eq]
  exact ⟨rfl, (State.enterRest_kept ..).note⟩

theorem State.handDone_outside (s : State) (i : Fin 16) (r c : Nat) : Exp.Outside s.exp (s.handDone i r c).exp := by
  unfold State.handDone
  split
  · exact .refl _
  · exact .refl _
  · split
    · exact .refl _
    · split
      · exact .refl _
      · exact State.acceptHandDone_outside ..
  · exact .refl _

@[simp] theorem State.closeVolume_exp (s : State) (i : Fin 16) (f : Bool) : (s.closeVolume i f).exp = s.exp := by
  unfold State.closeVolume
  repeat' split
  all_goals rfl

theorem State.endClosing_outside (s : State) (j : CloseJob) : Exp.Outside s.exp (s.endClosing j).exp := by
  rw [State.endClosing_eq]
  exact ⟨rfl, (State.enterRest_kept ..).note⟩

end Sys2Proof.Machine
end

section
/-! SUPPORT. The commands of the other blocks, one lemma each: they touch the exchange port from outside alone. The
commands of the opening cycle do so by `State.Kept`. -/

namespace Sys2Proof.Machine

section OutsideCommands
variable {s t : State}

/-! LOAD TABLES and the side band (chapters 1 and 9). -/

theorem execLoadTables_outside (h : execLoadTables s = .next t) : Exp.Outside s.exp t.exp := by
  rw [← next_inj h]
  split
  · exact .refl _
  · next hq =>
    have taken := (State.nextOrder_kept hq).outside
    split
    · exact taken
    · rw [State.startLoads_exp]
      exact taken

theorem execTableImagesRead_outside {b : List Byte} (h : execTableImagesRead b s = .next t) :
    Exp.Outside s.exp t.exp := by
  rw [← next_inj h]
  split
  · split
    · simp
    · split
      · exact .refl _
      · simp
  · exact .refl _

theorem execSidebandSlotsClear_outside {c : Chan} (h : execSidebandSlotsClear c s = .next t) :
    Exp.Outside s.exp t.exp := by
  rw [← next_inj h]
  split
  · split
    · dsimp only
      split <;> simp
    · exact .refl _
  · exact .refl _

theorem execSideband_outside {c : Chan} {ty k : Byte} {p : List Byte} (h : execSideband c ty p k s = .next t) :
    Exp.Outside s.exp t.exp := by
  rw [← next_inj h]
  split <;> simp

theorem execSidebandMalformed_outside {c : Chan} {ty n : Byte} (h : execSidebandMalformed c ty n s = .next t) :
    Exp.Outside s.exp t.exp := by
  rw [← next_inj h, State.startMark_exp]
  exact .refl _

theorem execReadSideband_outside (h : execReadSideband s = .next t) : Exp.Outside s.exp t.exp := by
  rw [← next_inj h]
  split
  · exact .refl _
  · next hq =>
    have taken := (State.nextOrder_kept hq).outside
    split <;> exact taken

theorem execSidebandCopy_outside {c : Chan} (h : execSidebandCopy c s = .next t) : Exp.Outside s.exp t.exp := by
  rw [← next_inj h]
  split
  · split <;> exact .refl _
  · exact .refl _

theorem execSidebandReportWritten_outside {c : Chan} (h : execSidebandReportWritten c s = .next t) :
    Exp.Outside s.exp t.exp := by
  rw [← next_inj h]
  split
  · split
    · dsimp only
      split <;> exact .refl _
    · exact .refl _
  · exact .refl _

/-! The orders of VAU (chapters 2 and 3). -/

theorem execOpenVolume_outside (h : execOpenVolume s = .next t) : Exp.Outside s.exp t.exp := by
  rw [← next_inj h]
  split
  · next hq =>
    have taken := (State.nextOrder_kept hq).outside
    split
    · exact taken
    · rw [State.startOpens_exp]
      exact taken
  · exact .refl _

theorem execSheetHeaderRead_outside {b : List Byte} (h : execSheetHeaderRead b s = .next t) :
    Exp.Outside s.exp t.exp := by
  rw [← next_inj h]
  split
  · dsimp only
    split <;> simp
  · exact .refl _

theorem execPlanRead_outside {b r : List Byte} (h : execPlanRead b r s = .next t) : Exp.Outside s.exp t.exp := by
  rw [← next_inj h]
  split
  · split
    · simp
    split
    · simp
    split
    · simp
    split
    · simp
    dsimp only
    split
    · rw [State.freshLedger_eq]; exact .refl _
    · rw [State.resumeLedger_eq]; exact .refl _
  · exact .refl _

theorem execLedgerReadComplete_outside {b l : List Byte} (h : execLedgerReadComplete b l s = .next t) :
    Exp.Outside s.exp t.exp := by
  rw [← next_inj h]
  split
  · rw [State.resume_eq]; exact .refl _
  · exact .refl _

theorem execOpeningWritesComplete_outside (h : execOpeningWritesComplete s = .next t) :
    Exp.Outside s.exp t.exp := by
  rw [← next_inj h]
  split
  · rw [State.endOpen_exp]
    exact (State.setUp_outside (s.landVau _) _).trans (State.enterRest_kept ..).outside
  · exact .refl _

theorem execAmend_outside (h : execAmend s = .next t) : Exp.Outside s.exp t.exp := by
  rw [← next_inj h]
  split
  · next hq =>
    rw [State.amend_exp]
    exact (State.nextOrder_kept hq).outside
  · exact .refl _

theorem execAmendWritesComplete_outside (h : execAmendWritesComplete s = .next t) : Exp.Outside s.exp t.exp := by
  rw [← next_inj h]
  split <;> exact .refl _

theorem execHandDone_outside (h : execHandDone s = .next t) : Exp.Outside s.exp t.exp := by
  rw [← next_inj h]
  split
  · next hq => exact (State.nextOrder_kept hq).outside.trans (State.handDone_outside ..)
  · exact .refl _

theorem execHandDoneWritesComplete_outside (h : execHandDoneWritesComplete s = .next t) :
    Exp.Outside s.exp t.exp := by
  rw [← next_inj h]
  split <;> exact .refl _

theorem execCloseVolume_outside (h : execCloseVolume s = .next t) : Exp.Outside s.exp t.exp := by
  rw [← next_inj h]
  split
  · next hq =>
    rw [State.closeVolume_exp]
    exact (State.nextOrder_kept hq).outside
  · exact .refl _

theorem execClosingWriteComplete_outside (h : execClosingWriteComplete s = .next t) : Exp.Outside s.exp t.exp := by
  rw [← next_inj h]
  split
  · exact .refl _
  split
  · exact .refl _
  dsimp only
  split
  · exact .refl _
  · exact .refl _
  · exact .refl _
  · exact State.endClosing_outside (s.landVau _) _

/-! The light unit (chapter 6). -/

theorem execAdmissionRequest_outside (h : execAdmissionRequest s = .next t) : Exp.Outside s.exp t.exp := by
  rw [← next_inj h]
  split
  · next hq => split <;> simp [State.nextLdu_exp hq]
  · exact .refl _

theorem execChargeWritesComplete_outside (h : execChargeWritesComplete s = .next t) : Exp.Outside s.exp t.exp := by
  rw [← next_inj h]
  split
  · dsimp only
    split <;> exact .refl _
  · exact .refl _

theorem execAbandonRequest_outside (h : execAbandonRequest s = .next t) : Exp.Outside s.exp t.exp := by
  rw [← next_inj h]
  split
  · next hq => split <;> simp [State.nextLdu_exp hq]
  · exact .refl _

theorem execFireRequest_outside (h : execFireRequest s = .next t) : Exp.Outside s.exp t.exp := by
  rw [← next_inj h]
  split
  · next hq => split <;> simp [State.nextLdu_exp hq]
  · exact .refl _

theorem execStrobeEnd_outside (h : execStrobeEnd s = .next t) : Exp.Outside s.exp t.exp := by
  rw [← next_inj h]
  split <;> simp

theorem execCancelRequest_outside (h : execCancelRequest s = .next t) : Exp.Outside s.exp t.exp := by
  rw [← next_inj h]
  split
  · next hq => split <;> simp [State.nextLdu_exp hq]
  · exact .refl _

theorem execAbortRequest_outside (h : execAbortRequest s = .next t) : Exp.Outside s.exp t.exp := by
  rw [← next_inj h]
  split
  · next hq => split <;> simp [State.nextLdu_exp hq]
  · exact .refl _

theorem execInterlockFall_outside (h : execInterlockFall s = .next t) : Exp.Outside s.exp t.exp := by
  rw [← next_inj h]
  split
  · split <;> simp
  · exact .refl _

theorem execOpenStringSense_outside {b : Fin 4} (h : execOpenStringSense b s = .next t) :
    Exp.Outside s.exp t.exp := by
  rw [← next_inj h]
  split
  · split <;> exact .refl _
  · exact .refl _

/-! The turn sequencer (chapter 5). -/

/-- The end of an event at the sequencer leaves the port as the event did (R80). -/
theorem State.tsqNext_outside {a : State} (h : s.tsqNext a = .next t) (ha : Exp.Outside s.exp a.exp) :
    Exp.Outside s.exp t.exp := by
  rw [← next_inj h, State.settle_exp]
  exact ha

theorem execTurnRequest_outside (h : execTurnRequest s = .next t) : Exp.Outside s.exp t.exp := by
  refine State.tsqNext_outside h ?_
  split
  · dsimp only
    split <;> simp
  · exact .refl _

theorem execPlatenRequest_outside (h : execPlatenRequest s = .next t) : Exp.Outside s.exp t.exp := by
  refine State.tsqNext_outside h ?_
  split
  · split <;> simp
  · exact .refl _

theorem execTsqStop_outside (h : execTsqStop s = .next t) : Exp.Outside s.exp t.exp := by
  refine State.tsqNext_outside h ?_
  split
  · dsimp only
    split <;> simp
  · exact .refl _

theorem execUpSwitchCloses_outside (h : execUpSwitchCloses s = .next t) : Exp.Outside s.exp t.exp :=
  State.tsqNext_outside h (.refl _)

theorem execUpSwitchOpens_outside (h : execUpSwitchOpens s = .next t) : Exp.Outside s.exp t.exp :=
  State.tsqNext_outside h (.refl _)

theorem execDownSwitchCloses_outside (h : execDownSwitchCloses s = .next t) : Exp.Outside s.exp t.exp := by
  refine State.tsqNext_outside h ?_
  split <;> simp

theorem execDownSwitchOpens_outside (h : execDownSwitchOpens s = .next t) : Exp.Outside s.exp t.exp :=
  State.tsqNext_outside h (.refl _)

theorem execPressureReading_outside {n : Fin 1024} (h : execPressureReading n s = .next t) :
    Exp.Outside s.exp t.exp := by
  refine State.tsqNext_outside h ?_
  split <;> simp

theorem execEdgeReached_outside (h : execEdgeReached s = .next t) : Exp.Outside s.exp t.exp := by
  refine State.tsqNext_outside h ?_
  split <;> exact .refl _

theorem execBurstEnd_outside (h : execBurstEnd s = .next t) : Exp.Outside s.exp t.exp := by
  refine State.tsqNext_outside h ?_
  split <;> exact .refl _

theorem execVacuumSwitchCloses_outside (h : execVacuumSwitchCloses s = .next t) : Exp.Outside s.exp t.exp := by
  refine State.tsqNext_outside h ?_
  split <;> exact .refl _

/-- A leaf lost in SWEEP raises NOTE.ARM (R91). -/
theorem execVacuumSwitchOpens_outside (h : execVacuumSwitchOpens s = .next t) : Exp.Outside s.exp t.exp := by
  refine State.tsqNext_outside h ?_
  split
  · simp
  · exact .refl _
  · simp
  · exact State.dropLeaf_outside ..
  · exact .refl _

theorem execReadSettled_outside {r : LeafReading} (h : execReadSettled r s = .next t) : Exp.Outside s.exp t.exp := by
  refine State.tsqNext_outside h ?_
  split
  · split <;> simp
  · exact .refl _

theorem execSweepEnd_outside (h : execSweepEnd s = .next t) : Exp.Outside s.exp t.exp := by
  refine State.tsqNext_outside h ?_
  split <;> exact .refl _

theorem execParkSwitchCloses_outside (h : execParkSwitchCloses s = .next t) : Exp.Outside s.exp t.exp := by
  refine State.tsqNext_outside h ?_
  split
  case h_4 => split <;> exact .refl _
  all_goals simp

theorem execParkSwitchOpens_outside (h : execParkSwitchOpens s = .next t) : Exp.Outside s.exp t.exp :=
  State.tsqNext_outside h (.refl _)

theorem execRetryWindowExpiry_outside (h : execRetryWindowExpiry s = .next t) : Exp.Outside s.exp t.exp := by
  refine State.tsqNext_outside h ?_
  split <;> exact .refl _

theorem execStageWatchExpiry_outside (h : execStageWatchExpiry s = .next t) : Exp.Outside s.exp t.exp := by
  refine State.tsqNext_outside h ?_
  split
  · exact State.stageExpired_outside s
  · exact .refl _

theorem execCutDelayExpiry_outside (h : execCutDelayExpiry s = .next t) : Exp.Outside s.exp t.exp := by
  refine State.tsqNext_outside h ?_
  split
  · exact State.cutArm_outside s
  · exact .refl _

theorem execPark_outside (h : execPark s = .next t) : Exp.Outside s.exp t.exp := by
  refine State.tsqNext_outside h ?_
  split
  · next hq =>
    rw [State.park_exp]
    exact (State.nextOrder_kept hq).outside
  · exact .refl _

theorem execArmRestore_outside (h : execArmRestore s = .next t) : Exp.Outside s.exp t.exp := by
  refine State.tsqNext_outside h ?_
  split
  · next hq =>
    rw [State.armRestore_exp]
    exact (State.nextOrder_kept hq).outside
  · exact .refl _

/-! The frame banks (chapter 8): a hand-over raises the note of its channel (R149). -/

theorem execGrant_outside {v : Word32} (h : execGrant v s = .next t) : Exp.Outside s.exp t.exp := by
  rw [← next_inj h, State.grantOf_eq, State.grantOf_eq]
  exact .refl _

theorem execReservationRequest_outside {c : Chan} (h : execReservationRequest c s = .next t) :
    Exp.Outside s.exp t.exp := by
  rw [← next_inj h]
  split
  · dsimp only
    split
    · exact .refl _
    · exact (State.seek_kept (s.dropFbk c _) c).outside
  · exact .refl _

theorem execDescriptorReadComplete_outside {c : Chan} {b : List Byte}
    (h : execDescriptorReadComplete c b s = .next t) : Exp.Outside s.exp t.exp := by
  rw [← next_inj h]
  dsimp only
  split
  · split <;> exact .refl _
  · exact .refl _

theorem execUnusableWriteComplete_outside {c : Chan} (h : execUnusableWriteComplete c s = .next t) :
    Exp.Outside s.exp t.exp := by
  rw [← next_inj h]
  split
  · exact ((State.fillDesc_banked (s.land _) ..).kept.trans (State.seek_kept ..)).outside
  · exact .refl _

theorem execReleaseRequest_outside {c : Chan} (h : execReleaseRequest c s = .next t) :
    Exp.Outside s.exp t.exp := by
  rw [← next_inj h]
  split
  · rw [State.toOcc_exp]
    exact State.releaseDesc_outside (s.dropFbk c _) ..
  · exact .refl _

theorem execDescriptorFilled_outside {c : Chan} (h : execDescriptorFilled c s = .next t) :
    Exp.Outside s.exp t.exp := by
  rw [← next_inj h]
  split
  · dsimp only
    split
    · exact (State.fillDesc_banked (s.dropFbk c _) ..).kept.outside
    · exact .refl _
  · exact .refl _

/-! The camera channels (chapter 7). -/

theorem execArmRequest_outside {c : Chan} (h : execArmRequest c s = .next t) : Exp.Outside s.exp t.exp := by
  rw [← next_inj h]
  split
  · exact .refl _
  · dsimp only
    split <;> simp

theorem execEndOfExposureNotice_outside {c : Chan} (h : execEndOfExposureNotice c s = .next t) :
    Exp.Outside s.exp t.exp := by
  rw [← next_inj h]
  dsimp only
  split
  · exact .refl _
  · split <;> exact .refl _

theorem execFrameHeader_outside {c : Chan} {i : BitVec 16} {n : Word32} (h : execFrameHeader c i n s = .next t) :
    Exp.Outside s.exp t.exp := by
  rw [← next_inj h]
  simp

theorem execBodyByte_outside {c : Chan} {b : Byte} (h : execBodyByte c b s = .next t) :
    Exp.Outside s.exp t.exp := by
  rw [← next_inj h]
  dsimp only
  split
  · split <;> simp
  · split <;> exact .refl _
  · exact .refl _

theorem execFrameTrailer_outside {c : Chan} {k : Word32} (h : execFrameTrailer c k s = .next t) :
    Exp.Outside s.exp t.exp := by
  rw [← next_inj h]
  dsimp only
  split
  · split <;> simp
  · split <;> exact .refl _
  · exact .refl _

theorem execStartMark_outside {c : Chan} (h : execStartMark c s = .next t) : Exp.Outside s.exp t.exp := by
  rw [← next_inj h]
  simp

theorem execResultWriteComplete_outside {c : Chan} (h : execResultWriteComplete c s = .next t) :
    Exp.Outside s.exp t.exp := by
  rw [← next_inj h]
  dsimp only
  split
  · split
    · exact .refl _
    · refine .trans (.of_eq ?_) (State.pollWait_kept _).outside
      rfl
  · exact .refl _

theorem execFrameWatchExpiry_outside {c : Chan} (h : execFrameWatchExpiry c s = .next t) :
    Exp.Outside s.exp t.exp := by
  rw [← next_inj h]
  dsimp only
  split
  · split
    · refine .trans ?_ (State.pollWait_kept _).outside
      split
      · simp
      · exact State.loseTake_outside ..
    · exact .refl _
  · exact .refl _

end OutsideCommands

/-- The commands that the port carries out itself: the register writes, the slot read and the answer write
(chapter 10). -/
def atPort : Instr → Bool
  | .powerOnReset .. | .controlReset _ | .controlEnable _ | .post _ | .slotReadComplete _ | .answerWriteComplete _
  | .ack _ | .noteClear _ | .noteMaskWrite _ | .baseWrite _ => true
  | _ => false

/-- Every other command touches the port from outside alone. -/
theorem exec_outside {c : Instr} {s t : State} (other : atPort c = false) (h : exec c s = .next t) :
    Exp.Outside s.exp t.exp := by
  cases c with
  | powerOnReset | controlReset | controlEnable | post | slotReadComplete | answerWriteComplete | ack | noteClear
  | noteMaskWrite | baseWrite => cases other
  | grant => exact execGrant_outside h
  | registerWriteIgnored => rw [← next_inj h]; exact .refl _
  | loadTables => exact execLoadTables_outside h
  | tableImagesRead => exact execTableImagesRead_outside h
  | sidebandSlotsClear => exact execSidebandSlotsClear_outside h
  | openVolume => exact execOpenVolume_outside h
  | sheetHeaderRead => exact execSheetHeaderRead_outside h
  | planRead => exact execPlanRead_outside h
  | ledgerReadComplete => exact execLedgerReadComplete_outside h
  | openingWritesComplete => exact execOpeningWritesComplete_outside h
  | amend => exact execAmend_outside h
  | amendWritesComplete => exact execAmendWritesComplete_outside h
  | handDone => exact execHandDone_outside h
  | handDoneWritesComplete => exact execHandDoneWritesComplete_outside h
  | closeVolume => exact execCloseVolume_outside h
  | closingWriteComplete => exact execClosingWriteComplete_outside h
  | advance => exact (execAdvance_kept h).outside
  | capture => exact (execCapture_kept h).outside
  | turn => exact (execTurn_kept h).outside
  | retake => exact (execRetake_kept h).outside
  | stop => exact (execStop_kept h).outside
  | reservationAnswer => exact (execReservationAnswer_kept h).outside
  | grantReport => exact (execGrantReport_kept h).outside
  | roomWatchExpiry => exact (execRoomWatchExpiry_kept h).outside
  | admissionAnswer => exact (execAdmissionAnswer_kept h).outside
  | armedAnswer => exact (execArmedAnswer_kept h).outside
  | fireAnswer => exact (execFireAnswer_kept h).outside
  | platenCompletion => exact (execPlatenCompletion_kept h).outside
  | turnCompletion => exact (execTurnCompletion_kept h).outside
  | lampFaultReport => exact (execLampFaultReport_kept h).outside
  | cameraFaultReport => exact (execCameraFaultReport_kept h).outside
  | judgementTaken => exact (execJudgementTaken_kept h).outside
  | cancelAnswer => exact (execCancelAnswer_kept h).outside
  | admissionRequest => exact execAdmissionRequest_outside h
  | chargeWritesComplete => exact execChargeWritesComplete_outside h
  | abandonRequest => exact execAbandonRequest_outside h
  | fireRequest => exact execFireRequest_outside h
  | strobeEnd => exact execStrobeEnd_outside h
  | cancelRequest => exact execCancelRequest_outside h
  | abortRequest => exact execAbortRequest_outside h
  | interlockFall => exact execInterlockFall_outside h
  | openStringSense => exact execOpenStringSense_outside h
  | turnRequest => exact execTurnRequest_outside h
  | platenRequest => exact execPlatenRequest_outside h
  | tsqStop => exact execTsqStop_outside h
  | upSwitchCloses => exact execUpSwitchCloses_outside h
  | upSwitchOpens => exact execUpSwitchOpens_outside h
  | downSwitchCloses => exact execDownSwitchCloses_outside h
  | downSwitchOpens => exact execDownSwitchOpens_outside h
  | pressureReading => exact execPressureReading_outside h
  | edgeReached => exact execEdgeReached_outside h
  | burstEnd => exact execBurstEnd_outside h
  | vacuumSwitchCloses => exact execVacuumSwitchCloses_outside h
  | vacuumSwitchOpens => exact execVacuumSwitchOpens_outside h
  | readSettled => exact execReadSettled_outside h
  | sweepEnd => exact execSweepEnd_outside h
  | parkSwitchCloses => exact execParkSwitchCloses_outside h
  | parkSwitchOpens => exact execParkSwitchOpens_outside h
  | retryWindowExpiry => exact execRetryWindowExpiry_outside h
  | stageWatchExpiry => exact execStageWatchExpiry_outside h
  | cutDelayExpiry => exact execCutDelayExpiry_outside h
  | park => exact execPark_outside h
  | armRestore => exact execArmRestore_outside h
  | reservationRequest => exact execReservationRequest_outside h
  | unusableWriteComplete => exact execUnusableWriteComplete_outside h
  | releaseRequest => exact execReleaseRequest_outside h
  | descriptorFilled => exact execDescriptorFilled_outside h
  | descriptorReadComplete => exact execDescriptorReadComplete_outside h
  | armRequest => exact execArmRequest_outside h
  | endOfExposureNotice => exact execEndOfExposureNotice_outside h
  | frameHeader => exact execFrameHeader_outside h
  | bodyByte => exact execBodyByte_outside h
  | frameTrailer => exact execFrameTrailer_outside h
  | startMark => exact execStartMark_outside h
  | resultWriteComplete => exact execResultWriteComplete_outside h
  | frameWatchExpiry => exact execFrameWatchExpiry_outside h
  | sideband => exact execSideband_outside h
  | sidebandMalformed _ ty n => exact execSidebandMalformed_outside (ty := ty) (n := n) h
  | strayBytes => rw [← next_inj h]; exact .refl _
  | readSideband => exact execReadSideband_outside h
  | sidebandCopy => exact execSidebandCopy_outside h
  | sidebandReportWritten => exact execSidebandReportWritten_outside h

end Sys2Proof.Machine
end

section
/-! SUPPORT. The law of the ANSWERED slots and the notes, command by command (R161, R162, R166 to R168): the commands
of the port by their rules, every other by what it leaves of the port. -/

namespace Sys2Proof.Machine

/-! ### What the port's own commands lead to -/

section PortCommands
variable {s : State} {i : Fin 16} {b : List Byte}

/-- The TAKEN status of the slot being read, issued (R164). -/
def State.statusIssued (s : State) (i : Fin 16) : State := s.issue (.slotStatus i) (s.slotAddr i + 64) (leBytes 1 1)

theorem execSlotReadComplete_idle (idle : s.exp.take = none) : execSlotReadComplete b s = .next s := by
  simp only [execSlotReadComplete, idle]

/-- An order that passes is dispatched, and the take ends (R164). -/
theorem execSlotReadComplete_order (take : s.exp.take = some i) {o : Order} (passes : parseOrder b = some o) :
    execSlotReadComplete b s = .next { s.statusIssued i with
      exp := Exp.tryTake { s.exp with take := none, orders := s.exp.orders ++ [Dispatched.mk i o] } } := by
  simp only [execSlotReadComplete, take, passes]
  rfl

/-- An order that fails the form check is answered by the port itself (R165). -/
theorem execSlotReadComplete_badOrder (take : s.exp.take = some i) (fails : parseOrder b = none) :
    execSlotReadComplete b s = .next { (s.statusIssued i).answer i .badOrder with
      exp := Exp.tryTake { s.exp with take := none } } := by
  simp only [execSlotReadComplete, take, fails]
  rfl

/-- The port's writes to a slot: its status and its answer (R164, R166). -/
def writesSlot (i : Fin 16) (w : HostWrite) : Bool := w.writer == .slotStatus i || w.writer == .slotAnswer i

theorem execAnswerWriteComplete_taken (taken : s.exp.slot i = .taken) (issued : s.hasInFlight (.slotAnswer i) = true) :
    execAnswerWriteComplete i s = .next { s.land (writesSlot i) with
      exp := (s.exp.setSlot i .answered).raise .answer } := by
  simp only [execAnswerWriteComplete, taken, issued]
  rfl

theorem execAnswerWriteComplete_other (other : ¬ (s.exp.slot i = .taken ∧ s.hasInFlight (.slotAnswer i) = true)) :
    execAnswerWriteComplete i s = .next s := by
  rw [execAnswerWriteComplete, if_neg]
  rw [Bool.and_eq_true, beq_iff_eq]
  exact fun h => other h.symm

theorem execControlEnable_enable {v : Word32} (keeps : v.getLsbD 1 = false) : execControlEnable v s
    = .next { s with exp := Exp.tryTake { s.exp with enable := v.getLsbD 0 } } := by
  rw [execControlEnable, keeps]
  rfl

/-- After a reset every slot is FREE and the queue empty (R161, R171). -/
theorem exec_reset_slots {c : Instr} {t : State} (reset : resets c = true) (h : exec c s = .next t) :
    t.exp.slots = Exp.reset.slots ∧ t.exp.queue = Exp.reset.queue := by
  obtain ⟨park, up, down, rfl⟩ | k := exec_of_resets s reset
  · rw [← next_inj h]
    exact ⟨rfl, rfl⟩
  · rw [← next_inj (k.symm.trans h)]
    exact ⟨rfl, rfl⟩

end PortCommands

/-! ### The law of the slots (R161, R162, R166, R167) -/

/-- What command c may make of the slots of e: the queue stays exact, a slot becomes ANSWERED by its own answer write
alone, and leaves ANSWERED for FREE by an ACK or a reset. -/
structure Exp.SlotStep (c : Instr) (e e' : Exp) : Prop where
  queue : e'.QueueExact
  answered : ∀ i, e'.slot i = .answered → e.slot i = .answered ∨ (e.slot i = .taken ∧ c = .answerWriteComplete i)
  freed : ∀ i, e.slot i = .answered → e'.slot i ≠ .answered →
    e'.slot i = .free ∧ (resets c = true ∨ ∃ v : Word32, c = .ack v ∧ v.getLsbD i.val = true)

section SlotSteps
variable {c : Instr} {e e' : Exp} {s t : State}

/-- A command that answers no slot and frees none. -/
theorem Exp.SlotStep.of_answered_iff (sound : e'.QueueExact)
    (answered : ∀ i, e'.slot i = .answered ↔ e.slot i = .answered) : Exp.SlotStep c e e' where
  queue := sound
  answered i h := .inl ((answered i).1 h)
  freed i h k := absurd ((answered i).2 h) k

/-- A command that leaves the slots and the queue. -/
theorem Exp.SlotStep.of_eq (sound : e.QueueExact) (queue : e'.queue = e.queue) (slots : e'.slots = e.slots) :
    Exp.SlotStep c e e' :=
  .of_answered_iff (sound.congr queue slots) (fun i => by rw [Exp.slot, Exp.slot, slots])

theorem Exp.Outside.slotStep (h : Exp.Outside e e') (sound : e.QueueExact) : Exp.SlotStep c e e' :=
  .of_eq sound (by rw [h.frame]) (by rw [h.frame])

/-- A take makes a PENDING slot TAKEN, which was and is not ANSWERED (R163, R164). -/
theorem Exp.SlotStep.of_tryTake (sound : e.QueueExact) (queue : e'.queue = e.queue) (slots : e'.slots = e.slots) :
    Exp.SlotStep c e e'.tryTake := by
  have sound' := sound.congr queue slots
  refine .of_answered_iff sound'.tryTake (fun j => ?_)
  rw [Exp.tryTake_slot_answered (sound'.pending j).1, Exp.slot, Exp.slot, slots]

theorem exec_slotStep_of_resets (reset : resets c = true) (h : exec c s = .next t) :
    Exp.SlotStep c s.exp t.exp := by
  obtain ⟨slots, queue⟩ := exec_reset_slots reset h
  have free (i : Fin 16) : t.exp.slot i = .free := by rw [Exp.slot, slots]; exact Exp.reset_slot i
  exact {
    queue := Exp.reset_queueExact.congr queue slots
    answered := fun i k => nomatch (free i).symm.trans k
    freed := fun i _ _ => ⟨free i, .inl reset⟩ }

theorem execControlEnable_slotStep {v : Word32} (sound : s.exp.QueueExact) (h : exec (.controlEnable v) s = .next t) :
    Exp.SlotStep (.controlEnable v) s.exp t.exp := by
  by_cases reset : v.getLsbD 1 = true
  · exact exec_slotStep_of_resets reset h
  · have next := execControlEnable_enable (s := s) (Bool.eq_false_iff.2 reset)
    rw [← next_inj (next.symm.trans h)]
    exact .of_tryTake sound rfl rfl

theorem execPost_slotStep {v : Word32} (sound : s.exp.QueueExact) (h : execPost v s = .next t) :
    Exp.SlotStep (.post v) s.exp t.exp := by
  rw [← next_inj h]
  have posted := sound.post v
  refine .of_answered_iff posted.tryTake (fun i => ?_)
  rw [Exp.tryTake_slot_answered (posted.pending i).1, Exp.post_slot_answered]

theorem execSlotReadComplete_slotStep {b : List Byte} (sound : s.exp.QueueExact)
    (h : execSlotReadComplete b s = .next t) : Exp.SlotStep (.slotReadComplete b) s.exp t.exp := by
  cases take : s.exp.take with
  | none =>
    rw [← next_inj ((execSlotReadComplete_idle take).symm.trans h)]
    exact .of_eq sound rfl rfl
  | some i =>
    cases parsed : parseOrder b with
    | none =>
      rw [← next_inj ((execSlotReadComplete_badOrder take parsed).symm.trans h)]
      exact .of_tryTake sound rfl rfl
    | some o =>
      rw [← next_inj ((execSlotReadComplete_order take parsed).symm.trans h)]
      exact .of_tryTake sound rfl rfl

theorem execAnswerWriteComplete_slotStep {i : Fin 16} (sound : s.exp.QueueExact)
    (h : execAnswerWriteComplete i s = .next t) : Exp.SlotStep (.answerWriteComplete i) s.exp t.exp := by
  by_cases due : s.exp.slot i = .taken ∧ s.hasInFlight (.slotAnswer i) = true
  · obtain ⟨taken, issued⟩ := due
    rw [← next_inj ((execAnswerWriteComplete_taken taken issued).symm.trans h)]
    refine ⟨(sound.setSlot (st := .answered) (by rw [taken]; exact nofun) nofun).congr rfl rfl, fun j k => ?_,
      fun j k other => absurd ?_ other⟩
    · change (s.exp.setSlot i .answered).slot j = .answered at k
      rw [Exp.slot_setSlot] at k
      split at k
      · next same => exact same ▸ .inr ⟨taken, rfl⟩
      · exact .inl k
    · show (s.exp.setSlot i .answered).slot j = .answered
      rw [Exp.slot_setSlot, k, ite_self]
  · rw [← next_inj ((execAnswerWriteComplete_other due).symm.trans h)]
    exact .of_eq sound rfl rfl

theorem execAck_slotStep {v : Word32} (sound : s.exp.QueueExact) (h : execAck v s = .next t) :
    Exp.SlotStep (.ack v) s.exp t.exp := by
  rw [← next_inj ((execAck_eq v s).symm.trans h)]
  refine ⟨sound.ack v, fun i k => ?_, fun i answered other => ?_⟩
  · change (s.exp.ack v).slot i = .answered at k
    rw [Exp.ack_slot] at k
    split at k
    · cases k
    · exact .inl k
  · change (s.exp.ack v).slot i ≠ .answered at other
    show (s.exp.ack v).slot i = .free ∧ _
    rw [Exp.ack_slot] at other ⊢
    split at other
    · next named => exact ⟨if_pos named, .inr ⟨v, rfl, named.1⟩⟩
    · exact absurd answered other

/-- Every command keeps the law of the slots. -/
theorem exec_slotStep (sound : s.exp.QueueExact) (h : exec c s = .next t) : Exp.SlotStep c s.exp t.exp := by
  cases port : atPort c with
  | false => exact (exec_outside port h).slotStep sound
  | true =>
    cases c with
    | powerOnReset | controlReset => exact exec_slotStep_of_resets rfl h
    | controlEnable => exact execControlEnable_slotStep sound h
    | post => exact execPost_slotStep sound h
    | slotReadComplete => exact execSlotReadComplete_slotStep sound h
    | answerWriteComplete => exact execAnswerWriteComplete_slotStep sound h
    | ack => exact execAck_slotStep sound h
    | noteClear | noteMaskWrite =>
      rw [← next_inj h]
      exact .of_eq sound rfl rfl
    | baseWrite =>
      rw [← next_inj h]
      dsimp only
      split <;> exact .of_eq sound rfl rfl
    | _ => cases port

end SlotSteps

/-- Settles O11: a step is the command at the front of the queue (or none), and every command keeps the law. -/
theorem answeredMaskLaw : Obligations.AnsweredMaskLaw := by
  intro s t sound h
  unfold step at h
  split at h
  · rw [← next_inj h]
    exact ⟨sound, fun i => ⟨.inl, fun k other => absurd k other⟩⟩
  · next c rest front =>
    have law : Exp.SlotStep c s.exp t.exp := exec_slotStep (s := s.withPending rest) sound h
    have head : s.pending.head? = some c := by rw [front]; rfl
    refine ⟨law.queue, fun i => ⟨fun k => ?_, fun k other => ?_⟩⟩
    · exact (law.answered i k).imp_right fun ⟨taken, own⟩ => ⟨taken, head.trans (congrArg _ own)⟩
    · obtain ⟨free, cause⟩ := law.freed i k other
      exact ⟨free, c, head, cause⟩

/-! ### The notes (R168) -/

section Notes
variable {c : Instr} {s t : State} {k : Nat}

theorem execSlotReadComplete_note {b : List Byte} (h : execSlotReadComplete b s = .next t) :
    t.exp.note = s.exp.note := by
  cases take : s.exp.take with
  | none => rw [← next_inj ((execSlotReadComplete_idle take).symm.trans h)]
  | some i =>
    cases parsed : parseOrder b with
    | none =>
      rw [← next_inj ((execSlotReadComplete_badOrder take parsed).symm.trans h)]
      exact Exp.tryTake_note _
    | some o =>
      rw [← next_inj ((execSlotReadComplete_order take parsed).symm.trans h)]
      exact Exp.tryTake_note _

theorem execAnswerWriteComplete_notesKept {i : Fin 16} (h : execAnswerWriteComplete i s = .next t) :
    Exp.NotesKept s.exp t.exp := by
  by_cases due : s.exp.slot i = .taken ∧ s.hasInFlight (.slotAnswer i) = true
  · rw [← next_inj ((execAnswerWriteComplete_taken due.1 due.2).symm.trans h)]
    exact (s.exp.setSlot i .answered).raise_notesKept .answer
  · rw [← next_inj ((execAnswerWriteComplete_other due).symm.trans h)]
    exact .of_eq rfl

/-- The notes after a NOTE write (R168). -/
theorem noteClear_getLsbD (v : Word32) (s : State) (hk : k < 7) :
    (s.exp.note &&& ~~~ (v.setWidth 7)).getLsbD k = (s.exp.note.getLsbD k && !v.getLsbD k) := by
  simp [hk]

/-- Every command but a reset and a NOTE write keeps the notes. -/
theorem exec_notesKept (keeps : resets c = false) (other : ∀ v, c ≠ .noteClear v) (h : exec c s = .next t) :
    Exp.NotesKept s.exp t.exp := by
  cases port : atPort c with
  | false => exact (exec_outside port h).note
  | true =>
    cases c with
    | powerOnReset | controlReset => cases keeps
    | controlEnable =>
      rw [← next_inj ((execControlEnable_enable keeps).symm.trans h)]
      exact .of_eq (Exp.tryTake_note _)
    | post v =>
      rw [← next_inj h]
      intro k raised
      show (s.exp.post v).tryTake.note.getLsbD k = true
      rw [Exp.tryTake_note]
      exact Exp.postAll_notesKept v _ _ k raised
    | slotReadComplete => exact .of_eq (execSlotReadComplete_note h)
    | answerWriteComplete => exact execAnswerWriteComplete_notesKept h
    | ack v =>
      rw [← next_inj ((execAck_eq v s).symm.trans h)]
      exact .of_eq (by rw [Exp.ack_frame])
    | noteClear v => exact absurd rfl (other v)
    | noteMaskWrite =>
      rw [← next_inj h]
      exact .of_eq rfl
    | baseWrite =>
      rw [← next_inj h]
      dsimp only
      split <;> exact .of_eq rfl
    | _ => cases port

/-- A note that a command lowers: by a reset, or by a NOTE write with its bit (R168). -/
theorem exec_note_lowered {n : Note} (h : exec c s = .next t) (raised : s.exp.note.getLsbD n.bit = true)
    (lowered : t.exp.note.getLsbD n.bit = false) :
    resets c = true ∨ ∃ v : Word32, c = .noteClear v ∧ v.getLsbD n.bit = true := by
  by_cases clear : ∃ v, c = .noteClear v
  · obtain ⟨v, rfl⟩ := clear
    rw [← next_inj h] at lowered
    have bit := (noteClear_getLsbD v s n.bit_lt).symm.trans lowered
    rw [raised, Bool.true_and, Bool.not_eq_false'] at bit
    exact .inr ⟨v, rfl, bit⟩
  · refine .inl (Bool.not_eq_false _ ▸ fun keeps => ?_)
    have kept := exec_notesKept keeps (fun v own => clear ⟨v, own⟩) h n.bit raised
    rw [kept] at lowered
    cases lowered

end Notes

/-- Settles O13: the NOTE write bit by bit, and every other command by what it keeps. -/
theorem notesStayUntilCleared : Obligations.NotesStayUntilCleared := by
  refine ⟨fun v s => ⟨_, rfl, rfl, fun n => noteClear_getLsbD v s n.bit_lt, fun k => noteWord_getLsbD_of_ge _⟩,
    fun s t n h raised lowered => ?_⟩
  unfold step at h
  split at h
  · rw [← next_inj h, raised] at lowered
    cases lowered
  · next c rest front =>
    exact ⟨c, by rw [front]; rfl, exec_note_lowered (s := s.withPending rest) h raised lowered⟩

end Sys2Proof.Machine
end

section
/-! SUPPORT. The form check of an order (R165, Table 11-3): the parameters of a kind, the bytes that are reserved, and
the order that the parameters spell. -/

namespace Sys2Proof.Machine

/-- The two outcomes of a flag parameter (R165). -/
theorem flagOf_eq (n : Nat) : flagOf n = if n ≤ 1 then some (n == 1) else none := by
  match n with
  | 0 | 1 => rfl
  | n + 2 => exact (if_neg (by omega)).symm

/-- The sides by their codes (Table 11-13). -/
theorem Side.ofCode_eq (n : Nat) : Side.ofCode n
    = if n = 1 ∨ n = 2 then some (if n = 1 then .verso else .recto) else none := by
  match n with
  | 0 | 1 | 2 => rfl
  | n + 3 => exact (if_neg (by omega)).symm

/-- The thirteen kinds (R165). -/
theorem orderParams_eq_none_iff (k : Nat) : orderParams k = none ↔ k = 0 ∨ 13 < k := by
  unfold orderParams
  split
  case h_14 =>
    simp only [imp_false] at *
    simp only [true_iff]
    omega
  all_goals simp

/-- A byte of the order part that is neither the kind nor a parameter, and not 0 (R165). -/
theorem reservedZero_eq_false_iff (b : List Byte) (params : List Nat) :
    reservedZero b params = false ↔ ∃ i, 1 ≤ i ∧ i < 64 ∧ byteAt b i ≠ 0 ∧ i ∉ params := by
  simp only [reservedZero, List.all_eq_false, List.mem_range, Bool.or_eq_true, beq_iff_eq, List.contains_eq_mem,
    decide_eq_true_eq, not_or]
  refine exists_congr fun i => ?_
  rw [Nat.one_le_iff_ne_zero]
  tauto

/-- A parameter outside its encoding, or a kind that is none (R165). -/
theorem orderOf_eq_none_iff (b : List Byte) : orderOf b = none ↔
    (byteAt b 0 = 0 ∨ 13 < byteAt b 0)
    ∨ ((byteAt b 0 = 5 ∨ byteAt b 0 = 11) ∧ 1 < byteAt b 4)
    ∨ (byteAt b 0 = 6 ∧ (leNat b 4 2 = 0 ∨ 1024 < leNat b 4 2))
    ∨ (byteAt b 0 = 9 ∧ (byteAt b 6 = 0 ∨ 2 < byteAt b 6 ∨ byteAt b 7 = 0 ∨ 8 < byteAt b 7)) := by
  unfold orderOf
  split
  case h_5 kind | h_11 kind => simp [kind, flagOf_eq]
  case h_6 kind =>
    simp only [kind]
    split <;> simp <;> omega
  case h_9 kind =>
    simp only [kind, Side.ofCode_eq]
    by_cases side : byteAt b 6 = 1 ∨ byteAt b 6 = 2
    · simp only [if_pos side]
      split <;> simp <;> omega
    · simp [if_neg side]
      omega
  case h_14 =>
    simp only [imp_false] at *
    simp only [true_iff]
    omega
  all_goals
    next kind => simp [kind]

theorem orderOf_of_parseOrder {b : List Byte} {o : Order} (h : parseOrder b = some o) : orderOf b = some o := by
  unfold parseOrder at h
  split at h
  · split at h
    · exact h
    · cases h
  · cases h

/-- The form check refuses a kind that is none, a reserved byte, and a parameter outside its encoding (R165). -/
theorem parseOrder_eq_none_iff (b : List Byte) : parseOrder b = none ↔
    orderParams (byteAt b 0) = none ∨ reservedZero b ((orderParams (byteAt b 0)).getD []) = false
      ∨ orderOf b = none := by
  unfold parseOrder
  split
  · next params kind =>
    rw [kind]
    cases zero : reservedZero b params <;> simp [zero]
  · next kind => simp [kind]

/-- The order of each kind, with its parameters at their bytes (Table 11-3). -/
theorem parseOrder_params {b : List Byte} {o : Order} (h : parseOrder b = some o) :
    (byteAt b 0 = 1 → o = .loadTables)
    ∧ (byteAt b 0 = 2 → o = .openVolume)
    ∧ (byteAt b 0 = 3 → o = .amend (leNat b 4 2) (byteAt b 6))
    ∧ (byteAt b 0 = 4 → o = .handDone (byteAt b 4) (leNat b 6 2))
    ∧ (byteAt b 0 = 5 → o = .closeVolume (byteAt b 4 == 1))
    ∧ (byteAt b 0 = 6 → o = .advance (leNat b 4 2))
    ∧ (byteAt b 0 = 7 → o = .capture)
    ∧ (byteAt b 0 = 8 → o = .turn)
    ∧ (byteAt b 0 = 9 →
      o = .retake (leNat b 4 2) (if byteAt b 6 = 1 then .verso else .recto) (byteAt b 7))
    ∧ (byteAt b 0 = 10 → o = .stop)
    ∧ (byteAt b 0 = 11 → o = .park (byteAt b 4 == 1))
    ∧ (byteAt b 0 = 12 → o = .armRestore)
    ∧ (byteAt b 0 = 13 → o = .readSideband) := by
  replace h := orderOf_of_parseOrder h
  have flag {f : Bool → Order} (k : (flagOf (byteAt b 4)).map f = some o) : o = f (byteAt b 4 == 1) := by
    rw [flagOf_eq] at k
    split at k
    · exact (Option.some.inj k).symm
    · cases k
  refine ⟨?_, ?_, ?_, ?_, ?_, ?_, ?_, ?_, ?_, ?_, ?_, ?_, ?_⟩ <;> intro kind <;> simp only [orderOf, kind] at h
  case refine_5 | refine_11 => exact flag h
  case refine_6 =>
    split at h
    · exact (Option.some.inj h).symm
    · cases h
  case refine_9 =>
    rw [Side.ofCode_eq] at h
    split at h
    · next named =>
      split at named
      · cases named
        split at h
        · exact (Option.some.inj h).symm
        · cases h
      · cases named
    · cases h
  all_goals exact (Option.some.inj h).symm

/-- Settles O8: the order by its kind, and the three ways to fail the form check. -/
theorem badOrderExactly : Obligations.BadOrderExactly := by
  refine ⟨fun b o h => parseOrder_params h, fun b => ?_⟩
  have absorb {kind reserved reserved' param : Prop} (same : reserved ↔ reserved') :
      (kind ∨ reserved ∨ kind ∨ param) ↔ (kind ∨ reserved' ∨ param) := by
    rw [same]
    tauto
  rw [parseOrder_eq_none_iff, orderParams_eq_none_iff, reservedZero_eq_false_iff, orderOf_eq_none_iff]
  refine absorb (exists_congr fun i => ?_)
  generalize byteAt b 0 = kind
  unfold orderParams
  split
  case h_14 => split <;> simp_all
  all_goals rfl

end Sys2Proof.Machine
end

section
/-! SUPPORT. Orders and messages taken in the order they came (R163; log 9), and the bytes of an answer (R166). -/

namespace Sys2Proof.Machine

/-- The first item of a list that a test names, and the list without it. -/
def takeFirst {α : Type} (p : α → Bool) : List α → Option (α × List α)
  | [] => none
  | x :: l => if p x then some (x, l) else (takeFirst p l).map (fun r => (r.1, x :: r.2))

/-- The item taken stands behind items that the test does not name, and they and the rest keep their order. -/
theorem takeFirst_eq_some_iff {α : Type} (p : α → Bool) (l r : List α) (x : α) : takeFirst p l = some (x, r) ↔
    ∃ a b, l = a ++ x :: b ∧ r = a ++ b ∧ p x = true ∧ ∀ y ∈ a, p y = false := by
  induction l generalizing r with
  | nil => simp [takeFirst]
  | cons y l ih =>
    unfold takeFirst
    split
    · next named =>
      constructor
      · intro h
        cases h
        exact ⟨[], _, rfl, rfl, named, by simp⟩
      · rintro ⟨a, b, parts, rfl, -, before⟩
        cases a with
        | nil => cases parts; rfl
        | cons z a =>
          cases parts
          rw [before _ List.mem_cons_self] at named
          cases named
    · next other =>
      rw [Bool.not_eq_true] at other
      constructor
      · intro h
        obtain ⟨⟨x', r'⟩, found, same⟩ := Option.map_eq_some_iff.1 h
        cases same
        obtain ⟨a, b, rfl, rfl, named, before⟩ := (ih r').1 found
        exact ⟨y :: a, b, rfl, rfl, named, List.forall_mem_cons.2 ⟨other, before⟩⟩
      · rintro ⟨a, b, parts, rfl, named, before⟩
        cases a with
        | nil =>
          cases parts
          rw [named] at other
          cases other
        | cons z a =>
          cases parts
          have found := (ih (a ++ b)).2 ⟨a, b, rfl, rfl, named, (List.forall_mem_cons.1 before).2⟩
          exact Option.map_eq_some_iff.2 ⟨(x, a ++ b), found, rfl⟩

theorem takeOrder_eq_takeFirst (o : Owner) (l : List Dispatched) :
    takeOrder o l = takeFirst (fun d => d.order.owner = o) l := by
  induction l with
  | nil => rfl
  | cons d l ih => simp only [takeOrder, takeFirst, ih, decide_eq_true_eq]

theorem takeMsg_eq_takeFirst (f : Sender) (l : List OccMsg) : takeMsg f l = takeFirst (fun m => m.sender = f) l := by
  induction l with
  | nil => rfl
  | cons m l ih => simp only [takeMsg, takeFirst, ih, decide_eq_true_eq]

/-- An answer with no result field: the status, the code, and zeros (R166). -/
theorem answerBytes_nil (k : AnswerCode) : answerBytes k [] = 2 :: BitVec.ofNat 8 k.code :: List.replicate 62 0 := rfl

/-- Settles O15: both queues by the first item that fits, and the answer by its bytes. -/
theorem ordersInAndAnswersOut : Obligations.OrdersInAndAnswersOut := by
  refine ⟨⟨fun o l r d => ?_, fun f l r m => ?_⟩, fun s i k f => rfl, rfl, answerBytes_nil, answerBytes_laidOut⟩
  · simp only [takeOrder_eq_takeFirst, takeFirst_eq_some_iff, decide_eq_true_eq, decide_eq_false_iff_not, ne_eq]
  · simp only [takeMsg_eq_takeFirst, takeFirst_eq_some_iff, decide_eq_true_eq, decide_eq_false_iff_not, ne_eq]

end Sys2Proof.Machine
end

section
/-! SUPPORT. The register window and the commands of the port (R161 to R174), each statement from the rules of the
port's operations. -/

namespace Sys2Proof.Machine

/-! ### POST and the take (R162 to R164) -/

/-- POST names a slot that is not FREE: the highest of them is the last mispost (R162). -/
theorem Exp.post_of_mispost {e : Exp} {v : Word32} {i : Fin 16} (named : v.getLsbD i.val = true)
    (held : e.slot i ≠ .free) (above : ∀ j : Fin 16, i < j → v.getLsbD j.val = true → e.slot j = .free) :
    (e.post v).note = e.note ||| 0x20 ∧ (e.post v).lastMispost = i :=
  Exp.postAll_of_mispost (List.pairwise_lt_finRange 16) (List.mem_finRange i) named held (fun j _ => above j)

/-- Settles O5: the slots, the queue and the misposts of a write, and the two races with an ACK. -/
theorem postJoinsTheQueue : Obligations.PostJoinsTheQueue := by
  refine ⟨fun v s => ⟨s.exp.post v, rfl, Exp.post_slot _ v, Exp.post_queue _ v, fun free => ?_,
      fun i named held above => Exp.post_of_mispost named held above, Exp.postAll_frame ..,
      fun nodup pending => ⟨Exp.post_queue_nodup v nodup pending, Exp.post_queue_pending v pending⟩⟩,
    fun v s unnamed idle => ?_, fun s i => ?_, fun s k hk => slotMask_getLsbD_of_ge _ hk,
    fun v w i s t u post ack answered ht hu => ?_, fun v w i s t u post ack answered out ht hu => ?_⟩
  · exact Exp.postAll_of_free (List.nodup_finRange 16) (fun i _ => free i)
  · show Host.Outcome.next _ = _
    rw [Exp.post_of_unnamed _ unnamed, Exp.tryTake_idle idle]
  · rw [State.readRegister_post, beq_iff_eq]
  · obtain rfl := next_inj ((execAck_eq w s).symm.trans ht)
    obtain rfl := next_inj hu
    have free : (s.exp.ack w).slot i = .free := by rw [Exp.ack_slot, if_pos ⟨ack, answered⟩]
    refine ⟨free, Exp.tryTake_queued ?_ ?_⟩
    · rw [Exp.mem_post_queue]
      exact .inr ⟨post, free⟩
    · rw [Exp.post_slot, if_pos ⟨post, free⟩]
  · obtain rfl := next_inj ht
    obtain rfl := next_inj ((execAck_eq w _).symm.trans hu)
    have held : s.exp.slot i ≠ .free := by rw [answered]; exact nofun
    have posted : (s.exp.post v).tryTake.slot i = .answered := by
      rw [Exp.tryTake_slot_of_not_mem, Exp.post_slot_answered]
      · exact answered
      · rw [Exp.mem_post_queue, not_or]
        exact ⟨out, fun h => held h.2⟩
    refine ⟨posted, ?_, ?_⟩
    · show (s.exp.post v).tryTake.note.getLsbD _ = true
      rw [Exp.tryTake_note]
      exact Exp.postAll_note_mispost (List.mem_finRange i) post held
    · show ((s.exp.post v).tryTake.ack w).slot i = .free
      rw [Exp.ack_slot, if_pos ⟨ack, posted⟩]

/-- Settles O6: the take by its test, and the CONTROL write without RESET. -/
theorem takeBegins : Obligations.TakeBegins := by
  refine ⟨fun e i rest enable take queue => ?_, fun e idle => Exp.tryTake_idle idle,
    fun v s keeps => execControlEnable_enable keeps⟩
  rw [Exp.tryTake_head enable take queue]
  refine ⟨rfl, rfl, ?_, fun j other => ?_, rfl⟩
  · show (e.setSlot i .taken).slot i = .taken
    rw [Exp.slot_setSlot, if_pos rfl]
  · show (e.setSlot i .taken).slot j = e.slot j
    rw [Exp.slot_setSlot, if_neg (Ne.symm other)]

/-- Settles O7: the slot read of an order that passes, and of one that fails the form check. -/
theorem slotReadDispatches : Obligations.SlotReadDispatches := by
  intro i b s take
  cases parsed : parseOrder b with
  | none =>
    refine ⟨_, execSlotReadComplete_badOrder take parsed, rfl, rfl, nofun, fun _ => ⟨rfl, ?_⟩⟩
    exact List.append_assoc ..
  | some o =>
    refine ⟨_, execSlotReadComplete_order take parsed, rfl, rfl, fun o' same => ?_, nofun⟩
    cases same
    exact ⟨rfl, rfl⟩

/-! ### The answer write and ACK (R166, R167) -/

/-- Fields laid over a record from byte m on leave its length and the bytes before m, also where they overlap. -/
theorem overlayAll_before {n m : Nat} (l : List FieldVal) (b : List Byte) (hb : b.length = n)
    (within : ∀ f ∈ l, m ≤ f.offset ∧ f.offset + f.width ≤ n) :
    (l.foldl (fun b f => overlay b f.offset (leBytes f.value f.width)) b).length = n
      ∧ ∀ k, k < m → (l.foldl (fun b f => overlay b f.offset (leBytes f.value f.width)) b)[k]? = b[k]? := by
  induction l generalizing b with
  | nil => exact ⟨hb, fun _ _ => rfl⟩
  | cons f l ih =>
    obtain ⟨⟨low, high⟩, rest⟩ := List.forall_mem_cons.1 within
    have fits : f.offset + (leBytes f.value f.width).length ≤ b.length := by rw [leBytes_length, hb]; exact high
    obtain ⟨length, before⟩ := ih (overlay b f.offset (leBytes f.value f.width))
      ((overlay_length _ _ _ fits).trans hb) rest
    refine ⟨length, fun k hk => (before k hk).trans ?_⟩
    rw [overlay_get _ _ _ _ fits, if_neg (by omega)]

/-- An answer fills the answer part of its slot, and begins with ANSWERED and the code (Table 11-2). -/
theorem answerBytes_status (code : AnswerCode) (fields : List FieldVal)
    (within : ∀ f ∈ fields, 66 ≤ f.offset ∧ f.offset + f.width ≤ 128) :
    (answerBytes code fields).length = 64 ∧ (answerBytes code fields)[0]? = some 2
      ∧ (answerBytes code fields)[1]? = some (BitVec.ofNat 8 code.code) := by
  have placed : ∀ f ∈ fields.map (fun f => { f with offset := f.offset - 64 }),
      2 ≤ f.offset ∧ f.offset + f.width ≤ 64 := by
    intro g hg
    obtain ⟨f, hf, rfl⟩ := List.mem_map.1 hg
    have := within f hf
    dsimp only
    omega
  obtain ⟨length, before⟩ := overlayAll_before _ (answerBytes code []) rfl placed
  exact ⟨length, before 0 (by omega), before 1 (by omega)⟩

/-- The slot is ANSWERED once its answer write has completed (R166). -/
theorem Exp.slot_answered_self (e : Exp) (i : Fin 16) : ((e.setSlot i .answered).raise .answer).slot i = .answered := by
  rw [Exp.raise_slot, Exp.slot_setSlot, if_pos rfl]

/-- Settles O9: the slot and its note, and the writes of the port that complete with the answer. -/
theorem answerWriteCompletes : Obligations.AnswerWriteCompletes := by
  intro i s taken issued
  have landed := s.land_completed (writesSlot i)
  refine ⟨_, execAnswerWriteComplete_taken taken issued, Exp.slot_answered_self _ i, fun j other => ?_, rfl, ?_,
    landed, fun b n code fields last within => ?_, rfl⟩
  · rw [Exp.raise_slot, Exp.slot_setSlot, if_neg (Ne.symm other)]
  · rw [State.readRegister_answered, beq_iff_eq]
    exact Exp.slot_answered_self _ i
  · obtain ⟨length, status, answer⟩ := answerBytes_status code fields within
    have bytes (k : Nat) (hk : k < 64) := landed.stand b _ [] last k (by rw [length]; exact hk) nofun
    exact ⟨(bytes 0 (by omega)).trans status, (bytes 1 (by omega)).trans answer, bytes⟩

/-- Settles O10: ACK slot by slot, and its two races with the completion. -/
theorem ackFreesAnsweredSlots : Obligations.AckFreesAnsweredSlots := by
  refine ⟨fun v s => ⟨_, execAck_eq v s, ?_, Exp.ack_slot _ v, fun i named => ?_⟩,
    fun v i s t u named taken issued ht hu => ?_, fun v i s t u named taken issued ht hu => ?_⟩
  · exact congrArg (fun e => { s with exp := e }) (s.exp.ack_frame v)
  · rw [State.readRegister_answered, Exp.ack_slot]
    by_cases answered : s.exp.slot i = .answered
    · rw [if_pos ⟨named, answered⟩]; rfl
    · rw [if_neg (fun h => answered h.2)]
      exact beq_eq_false_iff_ne.2 answered
  · obtain rfl := next_inj ((execAnswerWriteComplete_taken taken issued).symm.trans ht)
    obtain rfl := next_inj ((execAck_eq v _).symm.trans hu)
    exact (Exp.ack_slot _ v i).trans (if_pos ⟨named, Exp.slot_answered_self _ i⟩)
  · obtain rfl := next_inj ((execAck_eq v s).symm.trans ht)
    have still : (s.exp.ack v).slot i = .taken := by
      rw [Exp.ack_slot, taken]
      exact if_neg (fun h => nomatch h.2)
    obtain rfl := next_inj
      ((execAnswerWriteComplete_taken (s := { s with exp := s.exp.ack v }) still issued).symm.trans hu)
    exact ⟨still, Exp.slot_answered_self _ i⟩

/-! ### The registers (R168 to R172, R174) -/

/-- BASE may be written with no volume open and every slot FREE (R170). -/
theorem State.baseFree_iff (s : State) : s.baseFree = true ↔ s.vau.vol = .noVolume ∧ ∀ i, s.exp.slot i = .free := by
  simp [State.baseFree, Exp.allFree, List.all_eq_true, List.mem_finRange]

/-- Bits a to a + l - 1 of a register word. -/
theorem extractLsb'_ofNat (n a l : Nat) (within : a + l ≤ 32) :
    (BitVec.ofNat 32 n).extractLsb' a l = BitVec.ofNat l (n / 2 ^ a) := by
  refine BitVec.eq_of_getLsbD_eq fun k hk => ?_
  simp only [BitVec.getLsbD_extractLsb', BitVec.getLsbD_ofNat, hk, decide_true, Bool.true_and]
  rw [decide_eq_true (by omega), Bool.true_and, Nat.testBit_div_two_pow, Nat.add_comm]

/-- One bit of a register word, where a flag stands at it. -/
theorem getLsbD_ofNat_bit {n k : Nat} {b : Bool} (within : k < 32) (flag : n / 2 ^ k % 2 = bit b) :
    (BitVec.ofNat 32 n).getLsbD k = b := by
  rw [BitVec.getLsbD_ofNat, decide_eq_true within, Bool.true_and, Nat.testBit_eq_decide_div_mod_eq, flag]
  cases b <;> rfl

/-- The bits of a register word above a number that it holds. -/
theorem getLsbD_ofNat_of_lt {n m k : Nat} (below : n < 2 ^ m) (above : m ≤ k) :
    (BitVec.ofNat 32 n).getLsbD k = false := by
  rw [BitVec.getLsbD_ofNat, Nat.testBit_lt_two_pow (below.trans_le (Nat.pow_le_pow_right (by omega) above)),
    Bool.and_false]

theorem bit_false : bit false = 0 := rfl

theorem bit_lt_two (b : Bool) : bit b < 2 := by cases b <;> decide

theorem VolState.code_lt (v : VolState) : v.code < 8 := by cases v <;> decide
theorem Arm.code_lt (a : Arm) : a.code < 8 := by cases a <;> decide
theorem Vacuum.code_lt (v : Vacuum) : v.code < 4 := by cases v <;> decide
theorem Platen.code_lt (p : Platen) : p.code < 8 := by cases p <;> decide

/-- The fields of STATUS at their bits, and every other bit 0 (R172, Table 11-14). -/
structure StatusFields (w : Word32) (s : State) : Prop where
  vol : w.extractLsb' 0 3 = BitVec.ofNat 3 s.vau.vol.code
  bit3 : w.getLsbD 3 = false
  arm : w.extractLsb' 4 3 = BitVec.ofNat 3 s.tsq.arm.code
  bit7 : w.getLsbD 7 = false
  vacuum : w.extractLsb' 8 2 = BitVec.ofNat 2 s.tsq.vacuum.code
  bits10 : w.extractLsb' 10 2 = 0
  platen : w.extractLsb' 12 3 = BitVec.ofNat 3 s.tsq.platen.code
  bit15 : w.getLsbD 15 = false
  loaded : w.getLsbD 16 = s.pfs.loaded
  cause : w.getLsbD 17 = (s.exp.cause == .controller)
  refused : w.getLsbD 18 = s.exp.baseRefused
  bit19 : w.getLsbD 19 = false
  mispost : w.extractLsb' 20 4 = BitVec.ofNat 4 s.exp.lastMispost.val
  bits24 : w.extractLsb' 24 8 = 0

theorem State.statusWord_fields (s : State) : StatusFields s.statusWord s := by
  have vol := s.vau.vol.code_lt
  have arm := s.tsq.arm.code_lt
  have vacuum := s.tsq.vacuum.code_lt
  have platen := s.tsq.platen.code_lt
  have loaded := bit_lt_two s.pfs.loaded
  have cause := bit_lt_two (s.exp.cause == .controller)
  have refused := bit_lt_two s.exp.baseRefused
  have mispost := s.exp.lastMispost.isLt
  constructor
  case loaded | cause | refused => exact getLsbD_ofNat_bit (by omega) (by omega)
  case bit3 | bit7 | bit15 | bit19 => exact getLsbD_ofNat_bit (by omega) (by rw [bit_false]; omega)
  case vol | arm | vacuum | bits10 | platen | mispost | bits24 =>
    rw [State.statusWord, extractLsb'_ofNat _ _ _ (by omega)]
    apply BitVec.eq_of_toNat_eq
    simp only [BitVec.toNat_ofNat, BitVec.ofNat_eq_ofNat]
    omega

theorem State.grantMask_lt (s : State) : bit s.fbk.left.bankA.granted + 2 * bit s.fbk.left.bankB.granted
    + 4 * bit s.fbk.right.bankA.granted + 8 * bit s.fbk.right.bankB.granted < 2 ^ 4 := by
  have leftA := bit_lt_two s.fbk.left.bankA.granted
  have leftB := bit_lt_two s.fbk.left.bankB.granted
  have rightA := bit_lt_two s.fbk.right.bankA.granted
  have rightB := bit_lt_two s.fbk.right.bankB.granted
  omega

/-- GRANT reads as the GRANTED banks, L-A, L-B, R-A and R-B from bit 0 on (R143). -/
theorem State.grantMask_bits (s : State) : s.grantMask.getLsbD 0 = s.fbk.left.bankA.granted
    ∧ s.grantMask.getLsbD 1 = s.fbk.left.bankB.granted ∧ s.grantMask.getLsbD 2 = s.fbk.right.bankA.granted
    ∧ s.grantMask.getLsbD 3 = s.fbk.right.bankB.granted := by
  have leftA := bit_lt_two s.fbk.left.bankA.granted
  have leftB := bit_lt_two s.fbk.left.bankB.granted
  have rightA := bit_lt_two s.fbk.right.bankA.granted
  have rightB := bit_lt_two s.fbk.right.bankB.granted
  refine ⟨?_, ?_, ?_, ?_⟩ <;> exact getLsbD_ofNat_bit (by omega) (by omega)

/-- Settles O12: the BASE write by its condition, and each register by its bits. -/
theorem registersReadAndWrite : Obligations.RegistersReadAndWrite := by
  refine ⟨fun v s => ⟨fun closed free => ?_, fun busy => ?_⟩, fun r v s => rfl, fun s => ?_⟩
  · show Host.Outcome.next _ = _
    rw [if_pos (s.baseFree_iff.2 ⟨closed, free⟩)]
  · show Host.Outcome.next _ = _
    rw [if_neg]
    rw [State.baseFree_iff, not_and_or, not_forall]
    exact busy
  · obtain ⟨vol, bit3, arm, bit7, vacuum, bits10, platen, bit15, loaded, cause, refused, bit19, mispost, bits24⟩ :=
      s.statusWord_fields
    obtain ⟨leftA, leftB, rightA, rightB⟩ := s.grantMask_bits
    have enable := bit_lt_two s.exp.enable
    exact ⟨fun i => ⟨s.readRegister_post i, s.readRegister_answered i⟩,
      fun k hk => ⟨slotMask_getLsbD_of_ge _ hk, slotMask_getLsbD_of_ge _ hk⟩,
      getLsbD_ofNat_bit (by omega) (by omega), fun k hk => getLsbD_ofNat_of_lt (m := 1) enable hk, rfl,
      vol, bit3, arm, bit7, vacuum, bits10, platen, bit15, loaded, cause, refused, bit19, mispost, bits24,
      noteWord_extractLsb' _, noteWord_extractLsb' _,
      fun k hk => ⟨noteWord_getLsbD_of_ge _ hk, noteWord_getLsbD_of_ge _ hk⟩,
      leftA, leftB, rightA, rightB, fun k hk => getLsbD_ofNat_of_lt s.grantMask_lt hk, rfl, rfl, rfl, rfl⟩

/-- The enables after a NOTE_MASK write (R169). -/
theorem noteMask_getLsbD (v : Word32) (n : Note) : (v.setWidth 7).getLsbD n.bit = v.getLsbD n.bit := by
  rw [BitVec.getLsbD_setWidth, decide_eq_true n.bit_lt, Bool.true_and]

/-- Settles O14: the NOTE_MASK write, and INT from the notes and their enables. -/
theorem noteMaskDrivesInt : Obligations.NoteMaskDrivesInt := by
  refine ⟨fun v s => ⟨_, rfl, rfl, noteMask_getLsbD v,
    fun n => (noteWord_getLsbD _ _).trans (noteMask_getLsbD v n), fun k hk => noteWord_getLsbD_of_ge _ hk, ?_⟩,
    Exp.int_iff, fun e n enabled => ?_⟩
  · rw [Exp.int_iff]
    exact exists_congr fun n => and_congr_right' (by rw [noteMask_getLsbD])
  · refine (Exp.int_iff _).2 ⟨n, ?_, enabled⟩
    rw [Exp.raise_note_getLsbD, decide_eq_true rfl, Bool.or_true]

end Sys2Proof.Machine
end

section
/-! SUPPORT. What stands outside the blocks: the queue of commands (log 2) and the bytes that have reached host memory
(log 4). The operations that complete no write leave both as they are; the others keep the queue, and the canonical
form of the memory. -/

namespace Sys2Proof.Machine

/-- The queue of commands and the bytes of host memory. -/
def State.outerView (s : State) : List Instr × List Host.Cell := (s.pending, s.host.mem)

/-- t has the queue of commands of s, and its host memory is in canonical form if that of s is. -/
structure State.Tidy (s t : State) : Prop where
  pending : t.pending = s.pending
  canonical : s.memoryCanonical → t.memoryCanonical

theorem State.Tidy.trans {s t u : State} (h : State.Tidy s t) (k : State.Tidy t u) : State.Tidy s u :=
  ⟨k.pending.trans h.pending, fun hs => k.canonical (h.canonical hs)⟩

theorem State.tidy_of_view {s t : State} (h : t.outerView = s.outerView) : State.Tidy s t := by
  obtain ⟨pending, mem⟩ := Prod.mk.inj h
  exact ⟨pending, fun hs => by rw [State.memoryCanonical, mem]; exact hs⟩

theorem State.Tidy.refl (s : State) : State.Tidy s s := State.tidy_of_view rfl

/-- A tidy change, and then one that leaves queue and memory alone. -/
theorem State.Tidy.then_view {s t u : State} (h : State.Tidy s t) (k : u.outerView = t.outerView) : State.Tidy s u :=
  h.trans (State.tidy_of_view k)

theorem State.Kept.outerView {s t : State} (h : State.Kept s t) : t.outerView = s.outerView :=
  Prod.ext h.pending h.mem

theorem State.Banked.outerView {s t : State} (h : State.Banked s t) : t.outerView = s.outerView := h.kept.outerView

/-! ### Writes completed and cut -/

theorem State.land_tidy (s : State) (p : HostWrite → Bool) : State.Tidy s (s.land p) :=
  ⟨rfl, fun hs => State.land_wf hs p⟩

theorem State.landVau_tidy (s : State) (n : Nat) : State.Tidy s (s.landVau n) := State.land_tidy ..

theorem State.landBody_tidy (s : State) (c : Chan) : State.Tidy s (s.landBody c) := State.land_tidy ..

/-- A reset keeps the queue of commands, and only the bytes of the writes it cuts can reach host memory (log 36). -/
theorem State.resetBlocks_tidy (s : State) (e : Exp) (q : Tsq) : State.Tidy s (s.resetBlocks e q) :=
  ⟨rfl, fun hs => State.cutWrites_wf hs⟩

theorem State.controllerReset_tidy (s : State) : State.Tidy s s.controllerReset :=
  (State.tidy_of_view (Prod.ext s.cutCloseValid_pending s.cutCloseValid_mem)).trans (State.resetBlocks_tidy ..)

/-! ### Orders, messages and writes issued -/

theorem State.nextOrder_outerView {s t : State} {o : Owner} {d : Dispatched} (h : s.nextOrder o = some (d, t)) :
    t.outerView = s.outerView := (State.nextOrder_kept h).outerView

theorem State.nextLdu_outerView {s t : State} {m : LduMsg} (h : s.nextLdu = some (m, t)) :
    t.outerView = s.outerView := (State.nextLdu_kept h).outerView

@[simp] theorem State.answer_outerView (s : State) (i : Fin 16) (k : AnswerCode) (f : List FieldVal) :
    (s.answer i k f).outerView = s.outerView := rfl
@[simp] theorem State.toOcc_outerView (s : State) (m : OccMsg) : (s.toOcc m).outerView = s.outerView := rfl
@[simp] theorem State.setTsq_outerView (s : State) (q : Tsq) : (s.setTsq q).outerView = s.outerView := rfl
@[simp] theorem State.setLdu_outerView (s : State) (l : Ldu) : (s.setLdu l).outerView = s.outerView := rfl
@[simp] theorem State.setCch_outerView (s : State) (c : Chan) (x : Cch) :
    (s.setCch c x).outerView = s.outerView := rfl

/-! ### The orders of PFS and VAU (chapters 1 to 3) -/

@[simp] theorem State.startLoads_outerView (s : State) (l : List (Fin 16)) :
    (s.startLoads l).outerView = s.outerView := by
  induction l generalizing s with
  | nil => rfl
  | cons i l ih =>
    unfold State.startLoads
    split
    · rfl
    · rw [ih, State.answer_outerView]

@[simp] theorem State.endLoad_outerView (s : State) (i : Fin 16) (k : AnswerCode) (f : List FieldVal) :
    (s.endLoad i k f).outerView = s.outerView := by simp [State.endLoad]

@[simp] theorem State.startOpens_outerView (s : State) (l : List (Fin 16)) :
    (s.startOpens l).outerView = s.outerView := by
  induction l generalizing s with
  | nil => rfl
  | cons i l ih =>
    unfold State.startOpens
    split
    · rfl
    · rw [ih, State.answer_outerView]

@[simp] theorem State.endOpen_outerView (s : State) (i : Fin 16) (k : AnswerCode) (f : List FieldVal) :
    (s.endOpen i k f).outerView = s.outerView := by simp [State.endOpen]

theorem State.resyncChannel_tidy (s : State) (c : Chan) : State.Tidy s (s.resyncChannel c) := by
  have restarted : State.Tidy s ((s.landBody c).setCch c (s.cch.get c).resync) := (s.landBody_tidy c).then_view rfl
  unfold State.resyncChannel
  dsimp only
  split
  · exact restarted.then_view (State.releaseDesc_banked ..).outerView
  · exact restarted

/-- The body bytes of both channels reach host memory at the end of an opening (R32; log 5). -/
theorem State.setUp_tidy (s : State) (d : Nat) : State.Tidy s (s.setUp d) := by
  rw [State.setUp_eq]
  exact ((s.landBody_tidy .left).trans (State.landBody_tidy _ .right)).then_view rfl

@[simp] theorem State.amend_outerView (s : State) (i : Fin 16) (e k : Nat) :
    (s.amend i e k).outerView = s.outerView := by
  have changed (k : Kind) : (s.changeAccount (fun v => v.amend e k) true).outerView = s.outerView :=
    (State.changeAccount_kept ..).outerView
  unfold State.amend
  dsimp only
  repeat' split
  all_goals first | rfl | exact changed _

@[simp] theorem State.handDone_outerView (s : State) (i : Fin 16) (r c : Nat) :
    (s.handDone i r c).outerView = s.outerView := by
  unfold State.handDone
  split
  · rfl
  · rfl
  · split
    · rfl
    · split
      · rfl
      · rw [State.acceptHandDone_eq]; rfl
  · rfl

@[simp] theorem State.closeVolume_outerView (s : State) (i : Fin 16) (f : Bool) :
    (s.closeVolume i f).outerView = s.outerView := by
  unfold State.closeVolume
  repeat' split
  all_goals rfl

/-! ### The light unit (chapter 6) -/

@[simp] theorem State.notifyAll_outerView (s : State) (cs : ChanSet) (f : Chan → Notice) :
    (s.notifyAll cs f).outerView = s.outerView := by rw [State.notifyAll_eq]; rfl

@[simp] theorem State.considerAdmission_outerView (s : State) (cs : ChanSet) (k : ExpClass) :
    (s.considerAdmission cs k).outerView = s.outerView := by
  unfold State.considerAdmission
  dsimp only
  split <;> rfl

@[simp] theorem State.fire_outerView (s : State) (r : ExposureRec) : (s.fire r).outerView = s.outerView := by
  unfold State.fire
  split
  · rfl
  · simp

@[simp] theorem State.lampsOff_outerView (s : State) : s.lampsOff.outerView = s.outerView := by
  unfold State.lampsOff
  dsimp only
  split <;> rfl

@[simp] theorem State.endStrobe_outerView (s : State) (r : ExposureRec) (k : NoticeKind) (a : FireReply) :
    (s.endStrobe r k a).outerView = s.outerView := by simp [State.endStrobe]

/-! ### The camera channels (chapter 7) -/

@[simp] theorem State.arm_outerView (s : State) (c : Chan) (q : ArmReq) : (s.arm c q).outerView = s.outerView := rfl

@[simp] theorem State.endFrame_outerView (s : State) (c : Chan) (ok : Bool) :
    (s.endFrame c ok).outerView = s.outerView := by
  unfold State.endFrame
  dsimp only
  split
  · rfl
  · split <;> rfl

@[simp] theorem State.startMark_outerView (s : State) (c : Chan) : (s.startMark c).outerView = s.outerView := by
  unfold State.startMark
  dsimp only
  split <;> simp

@[simp] theorem State.takeByte_outerView (s : State) (c : Chan) (b : Byte) :
    (s.takeByte c b).outerView = s.outerView := by
  unfold State.takeByte
  dsimp only
  split
  · split <;> rfl
  · rfl

@[simp] theorem State.cutTake_outerView (s : State) (c : Chan) (t : TakeRec) :
    (s.cutTake c t).outerView = s.outerView := rfl

/-- The body bytes of a LOST take stay in its buffer (R130, R136; log 5). -/
theorem State.loseTake_tidy (s : State) (c : Chan) (t : TakeRec) : State.Tidy s (s.loseTake c t) := by
  unfold State.loseTake
  dsimp only
  split
  · exact (s.landBody_tidy c).then_view ((State.toOcc_outerView ..).trans (State.releaseDesc_banked ..).outerView)
  · exact (s.landBody_tidy c).then_view (State.releaseDesc_banked ..).outerView

/-! ### The turn sequencer (chapter 5) -/

@[simp] theorem State.settle_outerView (s : State) (b : Bool) : (s.settle b).outerView = s.outerView := by
  unfold State.settle
  split <;> rfl

@[simp] theorem State.stallTurn_outerView (s : State) : s.stallTurn.outerView = s.outerView := rfl
@[simp] theorem State.holdArm_outerView (s : State) : s.holdArm.outerView = s.outerView := rfl
@[simp] theorem State.cutArm_outerView (s : State) : s.cutArm.outerView = s.outerView := rfl

@[simp] theorem State.finishDown_outerView (s : State) : s.finishDown.outerView = s.outerView := by
  unfold State.finishDown
  split
  · rfl
  · split
    · rfl
    · split <;> rfl
  · rfl

@[simp] theorem State.arriveDown_outerView (s : State) (p : Platen) : (s.arriveDown p).outerView = s.outerView :=
  State.finishDown_outerView _

@[simp] theorem State.beginPlatenDown_outerView (s : State) : s.beginPlatenDown.outerView = s.outerView := by
  unfold State.beginPlatenDown
  dsimp only
  split
  · simp
  · split <;> simp

@[simp] theorem State.failAttempt_outerView (s : State) (r : Nat) (x : LiftReading) :
    (s.failAttempt r x).outerView = s.outerView := (State.changeAccount_kept ..).outerView

@[simp] theorem State.dropLeaf_outerView (s : State) (r : Nat) : (s.dropLeaf r).outerView = s.outerView := by
  rw [State.dropLeaf_eq]; rfl

@[simp] theorem State.armStall_outerView (s : State) : s.armStall.outerView = s.outerView := by
  unfold State.armStall
  split <;> rfl

@[simp] theorem State.platenStall_outerView (s : State) : s.platenStall.outerView = s.outerView := by
  unfold State.platenStall
  dsimp only
  split <;> rfl

@[simp] theorem State.stageExpired_outerView (s : State) : s.stageExpired.outerView = s.outerView := by
  unfold State.stageExpired
  split
  · simp
  · simp
  · simp
  · split <;> simp
  · simp

@[simp] theorem State.stopTurn_outerView (s : State) (g : Stage) : (s.stopTurn g).outerView = s.outerView := by
  unfold State.stopTurn
  split
  case h_7 => split <;> rfl
  all_goals simp

@[simp] theorem State.endRelease_outerView (s : State) (r : Nat) : (s.endRelease r).outerView = s.outerView := by
  unfold State.endRelease
  split <;> rfl

@[simp] theorem State.park_outerView (s : State) (i : Fin 16) (release : Bool) :
    (s.park i release).outerView = s.outerView := by
  unfold State.park
  dsimp only
  repeat' split
  all_goals rfl

@[simp] theorem State.armRestore_outerView (s : State) (i : Fin 16) :
    (s.armRestore i).outerView = s.outerView := by
  unfold State.armRestore
  repeat' split
  all_goals rfl

end Sys2Proof.Machine
end

section
/-! SUPPORT. The commands of the blocks, one lemma each: those that complete no write leave queue and memory as they
are, the others are tidy. The commands of the opening cycle leave both alone by `State.Kept`. -/

namespace Sys2Proof.Machine

section TidyCommands
variable {s t : State}

/-! The exchange port (chapter 10). -/

theorem execControlEnable_tidy {v : Word32} (h : execControlEnable v s = .next t) : State.Tidy s t := by
  rw [← next_inj h]
  split
  · exact s.controllerReset_tidy
  · exact State.tidy_of_view rfl

theorem execGrant_outerView {v : Word32} (h : execGrant v s = .next t) : t.outerView = s.outerView := by
  rw [← next_inj h, State.grantOf_eq, State.grantOf_eq]; rfl

theorem execSlotReadComplete_outerView {b : List Byte} (h : execSlotReadComplete b s = .next t) :
    t.outerView = s.outerView := by
  rw [← next_inj h]
  split
  · rfl
  · dsimp only
    split <;> rfl

theorem execAnswerWriteComplete_tidy {i : Fin 16} (h : execAnswerWriteComplete i s = .next t) : State.Tidy s t := by
  rw [← next_inj h]
  split
  · exact (State.land_tidy s _).then_view rfl
  · exact .refl s

/-! LOAD TABLES and the side band (chapters 1 and 9). -/

theorem execLoadTables_outerView (h : execLoadTables s = .next t) : t.outerView = s.outerView := by
  rw [← next_inj h]
  split
  · rfl
  · next hq =>
    have queue := State.nextOrder_outerView hq
    split
    · exact queue
    · rw [State.startLoads_outerView, queue]

theorem execTableImagesRead_outerView {b : List Byte} (h : execTableImagesRead b s = .next t) :
    t.outerView = s.outerView := by
  rw [← next_inj h]
  split
  · split
    · rw [State.endLoad_outerView]
    · split
      · rfl
      · rw [State.endLoad_outerView]
  · rfl

theorem execSidebandSlotsClear_outerView {c : Chan} (h : execSidebandSlotsClear c s = .next t) :
    t.outerView = s.outerView := by
  rw [← next_inj h]
  split
  · split
    · dsimp only
      split
      · rw [State.endLoad_outerView, State.setCch_outerView]
      · rfl
    · rfl
  · rfl

theorem execSideband_outerView {c : Chan} {ty k : Byte} {p : List Byte} (h : execSideband c ty p k s = .next t) :
    t.outerView = s.outerView := by
  rw [← next_inj h]
  split <;> simp

theorem execReadSideband_outerView (h : execReadSideband s = .next t) : t.outerView = s.outerView := by
  rw [← next_inj h]
  split
  · rfl
  · next hq =>
    have queue := State.nextOrder_outerView hq
    split <;> exact queue

theorem execSidebandCopy_outerView {c : Chan} (h : execSidebandCopy c s = .next t) : t.outerView = s.outerView := by
  rw [← next_inj h]
  split
  · split <;> rfl
  · rfl

theorem execSidebandReportWritten_tidy {c : Chan} (h : execSidebandReportWritten c s = .next t) :
    State.Tidy s t := by
  rw [← next_inj h]
  split
  · split
    · dsimp only
      split <;> exact (State.land_tidy s _).then_view rfl
    · exact .refl s
  · exact .refl s

/-! The orders of VAU (chapters 2 and 3). -/

theorem execOpenVolume_outerView (h : execOpenVolume s = .next t) : t.outerView = s.outerView := by
  rw [← next_inj h]
  split
  · next hq =>
    have queue := State.nextOrder_outerView hq
    split
    · exact queue
    · rw [State.startOpens_outerView, queue]
  · rfl

theorem execSheetHeaderRead_outerView {b : List Byte} (h : execSheetHeaderRead b s = .next t) :
    t.outerView = s.outerView := by
  rw [← next_inj h]
  split
  · dsimp only
    split
    · rfl
    · rw [State.endOpen_outerView]
  · rfl

theorem execPlanRead_outerView {b r : List Byte} (h : execPlanRead b r s = .next t) : t.outerView = s.outerView := by
  rw [← next_inj h]
  split
  · split
    · simp
    split
    · simp
    split
    · simp
    split
    · simp
    dsimp only
    split
    · rw [State.freshLedger_eq]; rfl
    · rw [State.resumeLedger_eq]; rfl
  · rfl

theorem execLedgerReadComplete_outerView {b l : List Byte} (h : execLedgerReadComplete b l s = .next t) :
    t.outerView = s.outerView := by
  rw [← next_inj h]
  split
  · rw [State.resume_eq]; rfl
  · rfl

theorem execOpeningWritesComplete_tidy (h : execOpeningWritesComplete s = .next t) : State.Tidy s t := by
  rw [← next_inj h]
  split
  · exact ((s.landVau_tidy _).trans (State.setUp_tidy ..)).then_view
      ((State.endOpen_outerView ..).trans (State.enterRest_kept ..).outerView)
  · exact .refl s

theorem execAmend_outerView (h : execAmend s = .next t) : t.outerView = s.outerView := by
  rw [← next_inj h]
  split
  · next hq => rw [State.amend_outerView, State.nextOrder_outerView hq]
  · rfl

theorem execAmendWritesComplete_tidy (h : execAmendWritesComplete s = .next t) : State.Tidy s t := by
  rw [← next_inj h]
  split
  · exact (s.landVau_tidy _).then_view rfl
  · exact .refl s

theorem execHandDone_outerView (h : execHandDone s = .next t) : t.outerView = s.outerView := by
  rw [← next_inj h]
  split
  · next hq => rw [State.handDone_outerView, State.nextOrder_outerView hq]
  · rfl

theorem execHandDoneWritesComplete_tidy (h : execHandDoneWritesComplete s = .next t) : State.Tidy s t := by
  rw [← next_inj h]
  split
  · exact (s.landVau_tidy _).then_view rfl
  · exact .refl s

theorem execCloseVolume_outerView (h : execCloseVolume s = .next t) : t.outerView = s.outerView := by
  rw [← next_inj h]
  split
  · next hq => rw [State.closeVolume_outerView, State.nextOrder_outerView hq]
  · rfl

theorem execClosingWriteComplete_tidy (h : execClosingWriteComplete s = .next t) : State.Tidy s t := by
  rw [← next_inj h]
  split
  · exact .refl s
  · next j _ =>
    split
    · exact .refl s
    · refine (s.landVau_tidy j.ticket).then_view ?_
      dsimp only
      split
      · rfl
      · rfl
      · rfl
      · rw [State.endClosing_eq]; rfl

/-! The light unit (chapter 6). -/

theorem execAdmissionRequest_outerView (h : execAdmissionRequest s = .next t) : t.outerView = s.outerView := by
  rw [← next_inj h]
  split
  · next hq => split <;> simp [State.nextLdu_outerView hq]
  · rfl

theorem execChargeWritesComplete_tidy (h : execChargeWritesComplete s = .next t) : State.Tidy s t := by
  rw [← next_inj h]
  split
  · dsimp only
    split <;> exact (State.land_tidy s _).then_view rfl
  · exact .refl s

theorem execAbandonRequest_outerView (h : execAbandonRequest s = .next t) : t.outerView = s.outerView := by
  rw [← next_inj h]
  split
  · next hq => split <;> simp [State.nextLdu_outerView hq]
  · rfl

theorem execFireRequest_outerView (h : execFireRequest s = .next t) : t.outerView = s.outerView := by
  rw [← next_inj h]
  split
  · next hq => split <;> simp [State.nextLdu_outerView hq]
  · rfl

theorem execStrobeEnd_outerView (h : execStrobeEnd s = .next t) : t.outerView = s.outerView := by
  rw [← next_inj h]
  split
  · rw [State.endStrobe_outerView]
  · rfl

theorem execCancelRequest_outerView (h : execCancelRequest s = .next t) : t.outerView = s.outerView := by
  rw [← next_inj h]
  split
  · next hq => split <;> simp [State.nextLdu_outerView hq]
  · rfl

theorem execAbortRequest_outerView (h : execAbortRequest s = .next t) : t.outerView = s.outerView := by
  rw [← next_inj h]
  split
  · next hq => split <;> simp [State.nextLdu_outerView hq]
  · rfl

theorem execInterlockFall_outerView (h : execInterlockFall s = .next t) : t.outerView = s.outerView := by
  rw [← next_inj h]
  split
  · split
    · rw [State.endStrobe_outerView]
    · rfl
  · rfl

theorem execOpenStringSense_outerView {b : Fin 4} (h : execOpenStringSense b s = .next t) :
    t.outerView = s.outerView := by
  rw [← next_inj h]
  split
  · split <;> rfl
  · rfl

/-! The turn sequencer (chapter 5). -/

/-- The end of an event at the sequencer adds only the fall of the interlock signal (R80). -/
theorem State.tsqNext_outerView {a : State} (h : s.tsqNext a = .next t) (ha : a.outerView = s.outerView) :
    t.outerView = s.outerView := by
  rw [← next_inj h, State.settle_outerView, ha]

theorem execTurnRequest_outerView (h : execTurnRequest s = .next t) : t.outerView = s.outerView := by
  refine State.tsqNext_outerView h ?_
  split
  · dsimp only
    split <;> rfl
  · rfl

theorem execPlatenRequest_outerView (h : execPlatenRequest s = .next t) : t.outerView = s.outerView := by
  refine State.tsqNext_outerView h ?_
  split
  · split
    · rw [State.beginPlatenDown_outerView, State.setTsq_outerView]
    · rfl
  · rfl

theorem execTsqStop_outerView (h : execTsqStop s = .next t) : t.outerView = s.outerView := by
  refine State.tsqNext_outerView h ?_
  split
  · dsimp only
    split <;> simp
  · rfl

theorem execDownSwitchCloses_outerView (h : execDownSwitchCloses s = .next t) : t.outerView = s.outerView := by
  refine State.tsqNext_outerView h ?_
  split
  · rw [State.arriveDown_outerView, State.setTsq_outerView]
  · rfl

theorem execPressureReading_outerView {n : Fin 1024} (h : execPressureReading n s = .next t) :
    t.outerView = s.outerView := by
  refine State.tsqNext_outerView h ?_
  split
  · rw [State.arriveDown_outerView, State.setTsq_outerView]
  · rfl

theorem execEdgeReached_outerView (h : execEdgeReached s = .next t) : t.outerView = s.outerView := by
  refine State.tsqNext_outerView h ?_
  split <;> rfl

theorem execBurstEnd_outerView (h : execBurstEnd s = .next t) : t.outerView = s.outerView := by
  refine State.tsqNext_outerView h ?_
  split <;> rfl

theorem execVacuumSwitchCloses_outerView (h : execVacuumSwitchCloses s = .next t) : t.outerView = s.outerView := by
  refine State.tsqNext_outerView h ?_
  split <;> rfl

theorem execVacuumSwitchOpens_outerView (h : execVacuumSwitchOpens s = .next t) : t.outerView = s.outerView := by
  refine State.tsqNext_outerView h ?_
  split <;> simp

theorem execReadSettled_outerView {r : LeafReading} (h : execReadSettled r s = .next t) :
    t.outerView = s.outerView := by
  refine State.tsqNext_outerView h ?_
  split
  · split <;> simp
  · rfl

theorem execSweepEnd_outerView (h : execSweepEnd s = .next t) : t.outerView = s.outerView := by
  refine State.tsqNext_outerView h ?_
  split <;> rfl

theorem execParkSwitchCloses_outerView (h : execParkSwitchCloses s = .next t) : t.outerView = s.outerView := by
  refine State.tsqNext_outerView h ?_
  split
  case h_4 => split <;> rfl
  all_goals simp

theorem execRetryWindowExpiry_outerView (h : execRetryWindowExpiry s = .next t) : t.outerView = s.outerView := by
  refine State.tsqNext_outerView h ?_
  split <;> rfl

theorem execStageWatchExpiry_outerView (h : execStageWatchExpiry s = .next t) : t.outerView = s.outerView := by
  refine State.tsqNext_outerView h ?_
  split
  · rw [State.stageExpired_outerView]
  · rfl

theorem execCutDelayExpiry_outerView (h : execCutDelayExpiry s = .next t) : t.outerView = s.outerView := by
  refine State.tsqNext_outerView h ?_
  split <;> rfl

theorem execPark_outerView (h : execPark s = .next t) : t.outerView = s.outerView := by
  refine State.tsqNext_outerView h ?_
  split
  · next hq => rw [State.park_outerView, State.nextOrder_outerView hq]
  · rfl

theorem execArmRestore_outerView (h : execArmRestore s = .next t) : t.outerView = s.outerView := by
  refine State.tsqNext_outerView h ?_
  split
  · next hq => rw [State.armRestore_outerView, State.nextOrder_outerView hq]
  · rfl

/-! The frame banks (chapter 8). -/

theorem execReservationRequest_outerView {c : Chan} (h : execReservationRequest c s = .next t) :
    t.outerView = s.outerView := by
  rw [← next_inj h]
  split
  · dsimp only
    split
    · rfl
    · exact (State.seek_kept (s.dropFbk c _) c).outerView
  · rfl

theorem execDescriptorReadComplete_outerView {c : Chan} {b : List Byte}
    (h : execDescriptorReadComplete c b s = .next t) : t.outerView = s.outerView := by
  rw [← next_inj h]
  dsimp only
  split
  · split <;> rfl
  · rfl

theorem execUnusableWriteComplete_tidy {c : Chan} (h : execUnusableWriteComplete c s = .next t) :
    State.Tidy s t := by
  rw [← next_inj h]
  split
  · exact (State.land_tidy s _).then_view ((State.fillDesc_banked ..).kept.trans (State.seek_kept ..)).outerView
  · exact .refl s

theorem execReleaseRequest_outerView {c : Chan} (h : execReleaseRequest c s = .next t) :
    t.outerView = s.outerView := by
  rw [← next_inj h]
  split
  · exact (State.toOcc_outerView ..).trans (State.releaseDesc_banked (s.dropFbk c _) ..).outerView
  · rfl

theorem execDescriptorFilled_outerView {c : Chan} (h : execDescriptorFilled c s = .next t) :
    t.outerView = s.outerView := by
  rw [← next_inj h]
  split
  · dsimp only
    split
    · exact (State.fillDesc_banked (s.dropFbk c _) ..).outerView
    · rfl
  · rfl

/-! The camera channels (chapter 7). -/

theorem execArmRequest_outerView {c : Chan} (h : execArmRequest c s = .next t) : t.outerView = s.outerView := by
  rw [← next_inj h]
  split
  · rfl
  · dsimp only
    split <;> simp

theorem execEndOfExposureNotice_outerView {c : Chan} (h : execEndOfExposureNotice c s = .next t) :
    t.outerView = s.outerView := by
  rw [← next_inj h]
  dsimp only
  split
  · rfl
  · split <;> rfl

theorem execFrameHeader_outerView {c : Chan} {i : BitVec 16} {n : Word32} (h : execFrameHeader c i n s = .next t) :
    t.outerView = s.outerView := by
  rw [← next_inj h, State.setCch_outerView, State.startMark_outerView]

theorem execBodyByte_outerView {c : Chan} {b : Byte} (h : execBodyByte c b s = .next t) :
    t.outerView = s.outerView := by
  rw [← next_inj h]
  dsimp only
  split
  · split <;> simp
  · split <;> rfl
  · rfl

theorem execFrameTrailer_outerView {c : Chan} {k : Word32} (h : execFrameTrailer c k s = .next t) :
    t.outerView = s.outerView := by
  rw [← next_inj h]
  dsimp only
  split
  · split <;> simp
  · split <;> rfl
  · rfl

theorem execStartMark_outerView {c : Chan} (h : execStartMark c s = .next t) : t.outerView = s.outerView := by
  rw [← next_inj h, State.startMark_outerView]

/-- The body bytes and the result of a take reach host memory (R130, R135). -/
theorem execResultWriteComplete_tidy {c : Chan} (h : execResultWriteComplete c s = .next t) : State.Tidy s t := by
  rw [← next_inj h]
  dsimp only
  split
  · split
    · exact .refl s
    · exact (State.land_tidy s _).then_view (State.pollWait_kept _).outerView
  · exact .refl s

theorem execFrameWatchExpiry_tidy {c : Chan} (h : execFrameWatchExpiry c s = .next t) : State.Tidy s t := by
  rw [← next_inj h]
  dsimp only
  split
  · split
    · refine State.Tidy.then_view ?_ (State.pollWait_kept _).outerView
      split
      · exact State.tidy_of_view (State.cutTake_outerView ..)
      · exact State.loseTake_tidy ..
    · exact .refl s
  · exact .refl s

/-! ### Every command, and the step -/

/-- The commands at which bytes may reach host memory: the completions of writes, the judgement at a frame watch, the
resets, and the CONTROL write that may be one. -/
def reachesMemory : Instr → Bool
  | .powerOnReset .. | .controlReset _ | .controlEnable _ | .answerWriteComplete _ | .openingWritesComplete
  | .amendWritesComplete | .handDoneWritesComplete | .closingWriteComplete | .chargeWritesComplete
  | .unusableWriteComplete _ | .resultWriteComplete _ | .frameWatchExpiry _ | .sidebandReportWritten _ => true
  | _ => false

/-- Every other command leaves queue and memory as they are. -/
theorem exec_outerView {c : Instr} (other : reachesMemory c = false) (h : exec c s = .next t) :
    t.outerView = s.outerView := by
  cases c with
  | powerOnReset | controlReset | controlEnable | answerWriteComplete | openingWritesComplete | amendWritesComplete
  | handDoneWritesComplete | closingWriteComplete | chargeWritesComplete | unusableWriteComplete
  | resultWriteComplete | frameWatchExpiry | sidebandReportWritten => cases other
  | post | ack | noteClear | noteMaskWrite | baseWrite => rw [← next_inj h]; rfl
  | registerWriteIgnored | strayBytes => rw [← next_inj h]
  | grant => exact execGrant_outerView h
  | slotReadComplete => exact execSlotReadComplete_outerView h
  | loadTables => exact execLoadTables_outerView h
  | tableImagesRead => exact execTableImagesRead_outerView h
  | sidebandSlotsClear => exact execSidebandSlotsClear_outerView h
  | openVolume => exact execOpenVolume_outerView h
  | sheetHeaderRead => exact execSheetHeaderRead_outerView h
  | planRead => exact execPlanRead_outerView h
  | ledgerReadComplete => exact execLedgerReadComplete_outerView h
  | amend => exact execAmend_outerView h
  | handDone => exact execHandDone_outerView h
  | closeVolume => exact execCloseVolume_outerView h
  | advance => exact (execAdvance_kept h).outerView
  | capture => exact (execCapture_kept h).outerView
  | turn => exact (execTurn_kept h).outerView
  | retake => exact (execRetake_kept h).outerView
  | stop => exact (execStop_kept h).outerView
  | reservationAnswer => exact (execReservationAnswer_kept h).outerView
  | grantReport => exact (execGrantReport_kept h).outerView
  | roomWatchExpiry => exact (execRoomWatchExpiry_kept h).outerView
  | admissionAnswer => exact (execAdmissionAnswer_kept h).outerView
  | armedAnswer => exact (execArmedAnswer_kept h).outerView
  | fireAnswer => exact (execFireAnswer_kept h).outerView
  | cancelAnswer => exact (execCancelAnswer_kept h).outerView
  | platenCompletion => exact (execPlatenCompletion_kept h).outerView
  | turnCompletion => exact (execTurnCompletion_kept h).outerView
  | lampFaultReport => exact (execLampFaultReport_kept h).outerView
  | cameraFaultReport => exact (execCameraFaultReport_kept h).outerView
  | judgementTaken => exact (execJudgementTaken_kept h).outerView
  | admissionRequest => exact execAdmissionRequest_outerView h
  | abandonRequest => exact execAbandonRequest_outerView h
  | fireRequest => exact execFireRequest_outerView h
  | strobeEnd => exact execStrobeEnd_outerView h
  | cancelRequest => exact execCancelRequest_outerView h
  | abortRequest => exact execAbortRequest_outerView h
  | interlockFall => exact execInterlockFall_outerView h
  | openStringSense => exact execOpenStringSense_outerView h
  | turnRequest => exact execTurnRequest_outerView h
  | platenRequest => exact execPlatenRequest_outerView h
  | tsqStop => exact execTsqStop_outerView h
  | upSwitchCloses | upSwitchOpens | downSwitchOpens | parkSwitchOpens =>
    exact State.tsqNext_outerView h rfl
  | downSwitchCloses => exact execDownSwitchCloses_outerView h
  | pressureReading => exact execPressureReading_outerView h
  | edgeReached => exact execEdgeReached_outerView h
  | burstEnd => exact execBurstEnd_outerView h
  | vacuumSwitchCloses => exact execVacuumSwitchCloses_outerView h
  | vacuumSwitchOpens => exact execVacuumSwitchOpens_outerView h
  | readSettled => exact execReadSettled_outerView h
  | sweepEnd => exact execSweepEnd_outerView h
  | parkSwitchCloses => exact execParkSwitchCloses_outerView h
  | retryWindowExpiry => exact execRetryWindowExpiry_outerView h
  | stageWatchExpiry => exact execStageWatchExpiry_outerView h
  | cutDelayExpiry => exact execCutDelayExpiry_outerView h
  | park => exact execPark_outerView h
  | armRestore => exact execArmRestore_outerView h
  | reservationRequest => exact execReservationRequest_outerView h
  | descriptorReadComplete => exact execDescriptorReadComplete_outerView h
  | releaseRequest => exact execReleaseRequest_outerView h
  | descriptorFilled => exact execDescriptorFilled_outerView h
  | armRequest => exact execArmRequest_outerView h
  | endOfExposureNotice => exact execEndOfExposureNotice_outerView h
  | frameHeader => exact execFrameHeader_outerView h
  | bodyByte => exact execBodyByte_outerView h
  | frameTrailer => exact execFrameTrailer_outerView h
  | startMark | sidebandMalformed => exact execStartMark_outerView h
  | sideband => exact execSideband_outerView h
  | readSideband => exact execReadSideband_outerView h
  | sidebandCopy => exact execSidebandCopy_outerView h

/-- Every command keeps the queue of commands, and host memory in its canonical form. -/
theorem exec_tidy {c : Instr} (h : exec c s = .next t) : State.Tidy s t := by
  cases reaches : reachesMemory c with
  | false => exact State.tidy_of_view (exec_outerView reaches h)
  | true =>
    cases c with
    | powerOnReset => rw [← next_inj h]; exact State.resetBlocks_tidy ..
    | controlReset => rw [← next_inj h]; exact s.controllerReset_tidy
    | controlEnable => exact execControlEnable_tidy h
    | answerWriteComplete => exact execAnswerWriteComplete_tidy h
    | openingWritesComplete => exact execOpeningWritesComplete_tidy h
    | amendWritesComplete => exact execAmendWritesComplete_tidy h
    | handDoneWritesComplete => exact execHandDoneWritesComplete_tidy h
    | closingWriteComplete => exact execClosingWriteComplete_tidy h
    | chargeWritesComplete => exact execChargeWritesComplete_tidy h
    | unusableWriteComplete => exact execUnusableWriteComplete_tidy h
    | resultWriteComplete => exact execResultWriteComplete_tidy h
    | frameWatchExpiry => exact execFrameWatchExpiry_tidy h
    | sidebandReportWritten => exact execSidebandReportWritten_tidy h
    | _ => cases reaches

end TidyCommands

/-- No meaning ends in a fault or a refusal: each is written as a next state. -/
theorem exec_next (c : Instr) (s : State) : ∃ t, exec c s = .next t := by
  cases c <;> exact ⟨_, rfl⟩

theorem step_of_cons {c : Instr} {rest : List Instr} {s : State} (front : s.pending = c :: rest) :
    step s = exec c (s.withPending rest) := by
  rw [step, front]

theorem step_of_nil {s : State} (idle : s.pending = []) : step s = .next s := by
  rw [step, idle]

/-- Settles O59: an empty queue leaves the memory alone, and the command at the front keeps its canonical form. -/
theorem memoryStaysCanonical : Obligations.MemoryStaysCanonical := by
  intro s t canonical h
  cases front : s.pending with
  | nil =>
    obtain rfl := next_inj ((step_of_nil front).symm.trans h)
    exact canonical
  | cons c rest => exact (exec_tidy ((step_of_cons front).symm.trans h)).canonical canonical

/-- Settles O2: the next state is the one each meaning is written as, and its queue that of `exec_tidy`. -/
theorem everyCommandAnswersNext : Obligations.EveryCommandAnswersNext := by
  intro c s
  obtain ⟨t, h⟩ := exec_next c s
  exact ⟨t, h, (exec_tidy h).pending⟩

/-- Settles O1, from the step by the front of its queue. -/
theorem stepRunsTheFrontCommand : Obligations.StepRunsTheFrontCommand :=
  ⟨fun _ _ _ front => step_of_cons front, fun _ _ => step_of_cons rfl, fun _ idle => step_of_nil idle⟩

end Sys2Proof.Machine
end
